-- ==== Sys2Proof/Word.lean ====
section
/-! DEFINITION. The event word: the one transfer unit of the block's input (30_encoding.md R70, R76). -/

namespace Sys2Proof

/-- An event word, 32 bits, as presented on the port `ev_word` (R40, R70). -/
abbrev Word := BitVec 32

end Sys2Proof
end

