-- ==== Sys2Proof/Config.lean ====
section
/-! DEFINITION. The configuration of the block (00_scope.md R6 to R11), what makes one legal (10_state.md R28) and fit to boot
(70_reset_and_hazards.md R195), and the parameters that belong to the environment alone (00_scope.md R12). -/

namespace Sys2Proof

/-- The value of the falling-edge table's cell `(Zero, Short)`, the parameter `FZS` of R10. -/
inductive FallZeroShort where
  /-- The source's value, normative for this hardware (R10, D16). -/
  | invalid
  /-- The variant for study of 90_conflicts.md C6: not this hardware. -/
  | noBit
  deriving DecidableEq, Repr

/-- The configuration record `cfg` of 00_scope.md section 3, fixed before the block leaves reset (R205). -/
structure Config where
  /-- `W`, the frame width in bits (R6). -/
  w : Nat
  /-- `T`, the half-bit period in ticks (R7). -/
  t : Nat
  /-- `tol`, the tolerance in ticks (R7). -/
  tol : Nat
  /-- `DW`, the width of the duration input in bits (R8). -/
  dw : Nat
  /-- `UPPER_INCLUSIVE`: a duration equal to a window's upper bound is inside the window (R9). -/
  upperInclusive : Bool
  /-- `FZS`, the falling-edge cell `(Zero, Short)` (R10). -/
  fzs : FallZeroShort
  /-- `ENABLE_AT_RESET`: the value of `en` after power-on reset (R11). -/
  enableAtReset : Bool
  deriving DecidableEq, Repr

/-- `shortMin = T - tol` (R27). -/
def Config.shortMin (c : Config) : Nat := c.t - c.tol

/-- `shortMax = T + tol` (R27). -/
def Config.shortMax (c : Config) : Nat := c.t + c.tol

/-- `longMin = 2T - tol` (R27). -/
def Config.longMin (c : Config) : Nat := 2 * c.t - c.tol

/-- `longMax = 2T + tol` (R27). -/
def Config.longMax (c : Config) : Nat := 2 * c.t + c.tol

/-- `RW = ceil(log2 W)`, the width of the bit counter `rem` (R13), written with the floor logarithm of `W - 1`. -/
def Config.rw (c : Config) : Nat := Nat.log2 (c.w - 1) + 1

/-- The legal configurations (R28, D4): both windows non-empty, a gap between them, `W >= 2` and `1 <= DW <= 27`. -/
def Config.legal (c : Config) : Bool :=
  decide (1 ≤ c.tol)
    && (if c.upperInclusive then decide (2 * c.tol + 1 < c.t) else decide (2 * c.tol < c.t))
    && decide (2 ≤ c.w) && decide (1 ≤ c.dw) && decide (c.dw ≤ 27)

/-- The boot condition R195 (3): the largest duration lies above the long window. A duty of the integrator, not a part of
legality (R28): the block works without it. -/
def Config.bootCheck (c : Config) : Bool :=
  if c.upperInclusive then decide (c.longMax < 2 ^ c.dw - 1) else decide (c.longMax ≤ 2 ^ c.dw - 1)

/-- The configuration that 95_test_vectors.md calls the default one. DESIGN CHOICE (log 2): the configuration of
`State.reset`; unsafe for a claim about `State.reset` alone. -/
def Config.standard : Config :=
  { w := 8, t := 900, tol := 270, dw := 16, upperInclusive := false, fzs := .invalid, enableAtReset := true }

/-- The parameters of the environment that the block does not read (R12, D24: OPEN), an argument of the environment's
predicates in Machine/Environment.lean. -/
structure EnvParams where
  /-- `TICK_HZ`, the tick frequency of the duration counter. -/
  tickHz : Nat
  /-- `TIMEOUT_WINDOW`. -/
  timeoutWindow : Nat
  /-- `TIMEOUT_WHILE_READY`: TIMEOUT is still sent after a frame has completed and before it is drained. -/
  timeoutWhileReady : Bool
  deriving DecidableEq, Repr

end Sys2Proof
end

