-- ==== Sys2Proof/Syntax.lean ====
section
/-! DEFINITION. The enumerations of 00_scope.md R16 and the block's "instructions": its five external events (R3, R71). -/

namespace Sys2Proof

/-- The direction of an edge on the decode pin (R16, R65). -/
inductive Direction where
  | falling
  | rising
  deriving DecidableEq, Repr

/-- The result of CLASSIFY (R16, R66): derived, not stored. -/
inductive PulseClass where
  | short
  | long
  | invalid
  deriving DecidableEq, Repr

/-- A valid pulse, `{Short, Long}`: the domain of RESOLVE (R94, R95), which is never given `Invalid`. -/
inductive Pulse where
  | short
  | long
  deriving DecidableEq, Repr

/-- A data bit, `{Zero, One}`: what `last` holds (R23) and what COMMIT takes (R98). -/
inductive DataBit where
  | zero
  | one
  deriving DecidableEq, Repr

/-- The result of RESOLVE (R16, R67). -/
inductive BitSymbol where
  | zero
  | one
  | noBit
  | invalid
  deriving DecidableEq, Repr

/-- The result of COMMIT (R16, R68). -/
inductive FrameStatus where
  | inProgress
  | complete
  deriving DecidableEq, Repr

/-- The five external events, one constructor per row of spec/opcode_table.json (R71). -/
inductive Instr where
  /-- EDGE: a transition on the decode pin, `dur` ticks after the previous one (R120). -/
  | edge (dir : Direction) (dur : Nat)
  /-- TIMEOUT: no edge within the timeout window (R130). -/
  | timeout
  /-- TAKE: drain a completed frame (R140). -/
  | take
  /-- DISABLE: suspend the decode path (R145). -/
  | disable
  /-- ENABLE: resume the decode path (R150). -/
  | enable
  deriving DecidableEq, Repr

end Sys2Proof
end

