-- ==== Sys2Proof/WellFormed.lean ====
section
/-! DEFINITION. Which events have a word: the one operand check of the spec (R72, R73). -/

namespace Sys2Proof

/-- An event is well formed for a duration input of `dw` bits if it has a legal word (R72 to R74): an EDGE's duration is below
`2^DW`; the other events have no operand to check. -/
def Instr.wellFormed (dw : Nat) : Instr → Bool
  | .edge _ dur => decide (dur < 2 ^ dw)
  | .timeout => true
  | .take => true
  | .disable => true
  | .enable => true

end Sys2Proof
end

