-- ==== Sys2Proof/Decode.lean ====
section
/-! DEFINITION. The encodings of 30_encoding.md: the codes of the enumerations (R65 to R68), the event word's fields (R70), the
total decoder (R75) and the encoder (R70 to R73). -/

namespace Sys2Proof

/-- `Falling = 0`, `Rising = 1` (R65). -/
def Direction.code : Direction → BitVec 1
  | .falling => 0#1
  | .rising => 1#1

/-- `Short = 0b00`, `Long = 0b01`, `Invalid = 0b10` (R66). -/
def PulseClass.code : PulseClass → BitVec 2
  | .short => 0b00#2
  | .long => 0b01#2
  | .invalid => 0b10#2

/-- The class a valid pulse is an element of (R66). -/
def Pulse.toClass : Pulse → PulseClass
  | .short => .short
  | .long => .long

/-- The valid pulse a class stands for; none for `Invalid` (R95). -/
def PulseClass.pulse : PulseClass → Option Pulse
  | .short => some .short
  | .long => some .long
  | .invalid => none

/-- `Zero = 0b00`, `One = 0b01`, `NoBit = 0b10`, `Invalid = 0b11` (R67). -/
def BitSymbol.code : BitSymbol → BitVec 2
  | .zero => 0b00#2
  | .one => 0b01#2
  | .noBit => 0b10#2
  | .invalid => 0b11#2

/-- `val(Zero) = 0`, `val(One) = 1` (R16). -/
def DataBit.val : DataBit → Nat
  | .zero => 0
  | .one => 1

/-- A data bit as a bit symbol (R16). -/
def DataBit.toSymbol : DataBit → BitSymbol
  | .zero => .zero
  | .one => .one

/-- `InProgress = 0`, `Complete = 1` (R68). -/
def FrameStatus.code : FrameStatus → BitVec 1
  | .inProgress => 0#1
  | .complete => 1#1

/-- Why a word is illegal (R75). -/
inductive IllegalReason where
  /-- `op` is `0x0` or `0x6` to `0xF`. -/
  | reservedOp
  /-- An EDGE word with a duration of `2^DW` or more. -/
  | edgeDurationTooWide
  /-- A non-zero operand field on a word that takes no operand. -/
  | nonZeroOperand
  deriving DecidableEq, Repr

/-- The result of decoding a word: an event, or `Illegal(reason)` (R75). -/
inductive Decoded where
  | event (i : Instr)
  | illegal (r : IllegalReason)
  deriving DecidableEq, Repr

/-- The field `op`, bits 31:28 (R70). -/
def opField (w : Word) : BitVec 4 := w.extractLsb' 28 4

/-- The field `dir`, bit 27 (R70). -/
def dirField (w : Word) : BitVec 1 := w.extractLsb' 27 1

/-- The field `dur`, bits 26:0 (R70). -/
def durField (w : Word) : BitVec 27 := w.extractLsb' 0 27

/-- Bits 27:0, which are 0 in every word but EDGE's (R73). -/
def operandField (w : Word) : BitVec 28 := w.extractLsb' 0 28

/-- `direction = Rising if ev_word[27] = 1 else Falling` (R72). -/
def decodeDirection (w : Word) : Direction := if dirField w = 1#1 then .rising else .falling

/-- A word of an event that takes no operand (R73, R75). -/
def decodeNoOperand (w : Word) (i : Instr) : Decoded :=
  if operandField w ≠ 0#28 then .illegal .nonZeroOperand else .event i

/-- `decode` of R75 for a duration input of `dw` bits; total on words. -/
def decode (dw : Nat) (w : Word) : Decoded :=
  if opField w = 0x1#4 then
    if dw < 27 ∧ durField w >>> dw ≠ 0#27 then .illegal .edgeDurationTooWide
    else .event (.edge (decodeDirection w) (durField w).toNat)
  else if opField w = 0x2#4 then decodeNoOperand w .timeout
  else if opField w = 0x3#4 then decodeNoOperand w .take
  else if opField w = 0x4#4 then decodeNoOperand w .disable
  else if opField w = 0x5#4 then decodeNoOperand w .enable
  else .illegal .reservedOp

/-- The operation code of an event (R71). -/
def Instr.opcode : Instr → BitVec 4
  | .edge _ _ => 0x1#4
  | .timeout => 0x2#4
  | .take => 0x3#4
  | .disable => 0x4#4
  | .enable => 0x5#4

/-- The operand bits 27:0 of an event: direction and duration for EDGE (R72), zero for the others (R73). -/
def Instr.operandBits : Instr → BitVec 28
  | .edge dir dur => dir.code ++ BitVec.ofNat 27 dur
  | .timeout => 0#28
  | .take => 0#28
  | .disable => 0#28
  | .enable => 0#28

/-- The word of an event (R70 to R73): `op` above the operand bits. -/
def encode (i : Instr) : Word := i.opcode ++ i.operandBits

/-- The event word whose bits are `w`, of which the opcode table gives `nbits`; the bits above are 0. The block takes a whole
32-bit word and has no bytes to order (R52, R76). -/
def wordOfBits (nbits w : Nat) : Word := BitVec.ofNat 32 (w % 2 ^ nbits)

/-- The event the decoder reads from a word of the opcode table, at the configuration of `State.reset` (log 2). -/
def decodeTableWord (nbits w : Nat) : Option Instr :=
  match decode Config.standard.dw (wordOfBits nbits w) with
  | .event i => some i
  | .illegal _ => none

end Sys2Proof
end

