-- ==== Sys2Proof/Machine/State.lean ====
section
/-! DEFINITION. The state of the block (10_state.md R20), with the model's own fields for what the environment presents and
observes, and the reasons a step can stop. -/

namespace Sys2Proof.Machine

open Sys2Proof

/-- Faults: none. No event and no internal operation of the block raises an exception or traps (R160); the type has no
constructor, so no step can fault (log 9; safe). -/
inductive Fault where
  deriving DecidableEq, Repr

/-- Why a step is refused. Every reason but the first is one the spec itself tells a model to refuse. -/
inductive Refusal where
  /-- Raised by an arm of `exec` whose instruction has no meaning yet; no arm does. Safe. -/
  | notModelled (mnemonic : String)
  /-- Raised by delivery of an illegal event word (R74, R175, D14). Safe. -/
  | illegalWord (reason : IllegalReason)
  /-- Raised by a step of a machine with an illegal configuration (R28, D4). Safe. -/
  | illegalConfiguration
  /-- Raised by delivery of an event word while `rst` is asserted (R190, 93_implementation_defined.md row 15). Safe. -/
  | eventDuringReset
  deriving DecidableEq, Repr

/-- The causes of the observation log (R166). Code 0, `(none)`, is never logged, so it is no constructor. -/
inductive Cause where
  | timingOutOfRange
  | framingInconsistency
  | signalTimeout
  | frameOverrun
  | drained
  | disabled
  | enabled
  | powerOn
  deriving DecidableEq, Repr

/-- What the input ports carry in one transaction (R40). -/
structure Transaction where
  /-- Power-on reset is asserted. -/
  rst : Bool
  /-- An event word is presented. -/
  evValid : Bool
  /-- The event word; without meaning while `evValid` is false. -/
  evWord : Word
  deriving DecidableEq, Repr

/-- The machine: the block's state record (R20), its configuration, and what its ports are given and have answered. -/
structure State where
  /-- The configuration: a parameter of the block (00_scope.md section 3) that no step changes (log 1). -/
  cfg : Config
  /-- The accumulator, `W` bits (R21); writes are taken modulo `2^W` (R14; log 3). -/
  acc : Nat
  /-- The bit slots still to be filled, `RW` bits (R22); writes are taken modulo `2^RW` (R14; log 3). -/
  rem : Nat
  /-- The last committed bit (R23). -/
  last : DataBit
  /-- The latched-error flag (R24). -/
  err : Bool
  /-- Phase established by the first falling edge (R25). -/
  sync : Bool
  /-- A complete frame waits to be drained (R26). -/
  ready : Bool
  /-- Edge and timeout delivery enabled (R29). -/
  en : Bool
  /-- The model's own: the transactions the environment presents, in the order of R56, next one first (log 5). -/
  inputs : List Transaction
  /-- The model's own: the TAKE responses so far, in event order (R41, R180; log 8). -/
  outs : List (Option Nat)
  /-- The model's own: the observation log so far, in event order (R166; log 8). -/
  log : List Cause
  deriving DecidableEq, Repr

/-- The state record of R20 alone. -/
structure Block where
  acc : Nat
  rem : Nat
  last : DataBit
  err : Bool
  sync : Bool
  ready : Bool
  en : Bool
  deriving DecidableEq, Repr

/-- The block's state record `S = (acc, rem, last, err, sync, ready, en)` in a machine state (R20). -/
def State.block (s : State) : Block :=
  { acc := s.acc, rem := s.rem, last := s.last, err := s.err, sync := s.sync, ready := s.ready, en := s.en }

/-- The machine right after power-on reset with configuration `c` (R42, R190), nothing presented yet and nothing observed but
the reset itself. -/
def State.powerOn (c : Config) : State :=
  { cfg := c, acc := 0, rem := c.w - 1, last := .one, err := false, sync := false, ready := false, en := c.enableAtReset,
    inputs := [], outs := [], log := [.powerOn] }

/-- The machine right after reset, at the configuration of 95_test_vectors.md (log 2). -/
def State.reset : State := State.powerOn Config.standard

end Sys2Proof.Machine
end

