-- ==== Sys2Proof/Machine/Flags.lean ====
section
/-! DEFINITION. The status flags (10_state.md R24 to R26, R29, R38), the last committed bit (R23), and the two views that the
fields give: the controller state (R33) and the source's three-valued `last_bit` (R44). -/

namespace Sys2Proof.Machine

open Sys2Proof

/-- `S.last <- b` (R23). -/
def State.setLast (s : State) (b : DataBit) : State := { s with last := b }

/-- `S.err <- v` (R24). -/
def State.setErr (s : State) (v : Bool) : State := { s with err := v }

/-- `S.sync <- v` (R25). -/
def State.setSync (s : State) (v : Bool) : State := { s with sync := v }

/-- `S.ready <- v` (R26). -/
def State.setReady (s : State) (v : Bool) : State := { s with ready := v }

/-- `S.en <- v` (R29). -/
def State.setEn (s : State) (v : Bool) : State := { s with en := v }

/-- The controller states (R33). The source's `Idle` and `Syncing` are one state (R34). -/
inductive ControllerState where
  | idle
  | accumulating
  | frameReady
  | error
  deriving DecidableEq, Repr

/-- `state(S)` of R33: a name for readers, not stored. -/
def State.view (s : State) : ControllerState :=
  if s.sync = false then .idle
  else if s.ready then .frameReady
  else if s.err then .error
  else .accumulating

/-- The source's `last_bit`, recovered from `err` and `last` (R44). -/
def State.lastBit (s : State) : BitSymbol := if s.err then .invalid else s.last.toSymbol

end Sys2Proof.Machine
end

