-- ==== Sys2Proof/Machine/Ops.lean ====
section
/-! DEFINITION. The shared operations on the state: the frame accumulator's COMMIT (40_datapath.md R98), the one recovery action
RESET_TO_IDLE (R102, R169), power-on reset (70_reset_and_hazards.md R190), the observation log (60_exceptions.md R166) and the
TAKE response (30_encoding.md R78). The block takes no exception and returns from none (R160, R170). -/

namespace Sys2Proof.Machine

open Sys2Proof

/-- `((acc << 1) | b) mod 2^W` (R98). -/
def shiftIn (c : Config) (acc : Nat) (b : DataBit) : Nat := ((acc <<< 1) ||| b.val) % 2 ^ c.w

/-- `rem - 1` as a value of `RW` bits (R98, R14). COMMIT never runs with `rem = 0` (R99). -/
def decRem (c : Config) (rem : Nat) : Nat := (rem + (2 ^ c.rw - 1)) % 2 ^ c.rw

/-- COMMIT (R98): shifts the bit in, counts it, and says whether the decremented count is zero. -/
def State.commit (s : State) (b : DataBit) : FrameStatus × State :=
  (if decRem s.cfg s.rem = 0 then .complete else .inProgress,
    { s with acc := shiftIn s.cfg s.acc b, rem := decRem s.cfg s.rem })

/-- RESET_TO_IDLE (R102): the empty form; `en` is not written. -/
def State.resetToIdle (s : State) : State :=
  { s with acc := 0, rem := s.cfg.w - 1, last := .one, err := false, sync := false, ready := false }

/-- `log(cause)` (R15, R166): appends to the observation log. -/
def State.logCause (s : State) (c : Cause) : State := { s with log := s.log ++ [c] }

/-- `out <- r` (R15, R140): the response of a TAKE. -/
def State.respond (s : State) (r : Option Nat) : State := { s with outs := s.outs ++ [r] }

/-- Power-on reset (R190): RESET_TO_IDLE, `en <- ENABLE_AT_RESET`, `log(PowerOn)`. -/
def State.powerOnReset (s : State) : State :=
  (s.resetToIdle.setEn s.cfg.enableAtReset).logCause .powerOn

/-- The ports `(take_valid, take_data)` of a TAKE response: `(1, acc)` for `Some(acc)`, `(0, 0)` for `None` (R41, R78). -/
def takePorts : Option Nat → BitVec 1 × Nat
  | some f => (1#1, f)
  | none => (0#1, 0)

/-- The code of a cause (R166). -/
def Cause.code : Cause → Nat
  | .timingOutOfRange => 1
  | .framingInconsistency => 2
  | .signalTimeout => 3
  | .frameOverrun => 4
  | .drained => 5
  | .disabled => 6
  | .enabled => 7
  | .powerOn => 8

/-- The code in the log column of a transaction that may log nothing: 0 is `(none)` (R166). -/
def causeCode : Option Cause → Nat
  | none => 0
  | some c => c.code

/-- Whether a cause is logged with a RESET_TO_IDLE (the last column of R166's table). -/
def Cause.resets : Cause → Bool
  | .frameOverrun => false
  | .timingOutOfRange => true
  | .framingInconsistency => true
  | .signalTimeout => true
  | .drained => true
  | .disabled => true
  | .enabled => true
  | .powerOn => true

end Sys2Proof.Machine
end

