-- ==== Sys2Proof/Machine/Control.lean ====
section
/-! DEFINITION. The meanings of TIMEOUT (41_controller.md R130), TAKE (R140), DISABLE (R145) and ENABLE (R150). -/

namespace Sys2Proof.Machine

open Sys2Proof

/-- TIMEOUT (R130, R131). -/
def execTimeout (s : State) : Host.Outcome State Fault Refusal :=
  .next (if s.en = false then s else s.resetToIdle.logCause .signalTimeout)

/-- TAKE (R140, R141): the response is the accumulator before the reset. -/
def execTake (s : State) : Host.Outcome State Fault Refusal :=
  .next (if s.ready then (s.respond (some s.acc)).resetToIdle.logCause .drained else s.respond none)

/-- DISABLE (R145). -/
def execDisable (s : State) : Host.Outcome State Fault Refusal :=
  .next ((s.resetToIdle.setEn false).logCause .disabled)

/-- ENABLE (R150). -/
def execEnable (s : State) : Host.Outcome State Fault Refusal :=
  .next ((s.resetToIdle.setEn true).logCause .enabled)

end Sys2Proof.Machine
end

