-- ==== Sys2Proof/Machine/Operands.lean ====
section
/-! DEFINITION. How an EDGE's operands are read: the pulse classifier (40_datapath.md R90) and the transition resolver with its
two constant tables (10_state.md R30, R31; 40_datapath.md R94; ROM layout 30_encoding.md R69). -/

namespace Sys2Proof.Machine

open Sys2Proof

/-- A duration is inside the window from `lo` to `hi`: the lower bound is inclusive (R91), the upper bound inclusive exactly
when `UPPER_INCLUSIVE` holds (R92). -/
def inWindow (c : Config) (lo hi d : Nat) : Bool :=
  decide (lo ≤ d) && (decide (d < hi) || (c.upperInclusive && decide (d = hi)))

/-- CLASSIFY (R90). -/
def classify (c : Config) (d : Nat) : PulseClass :=
  if inWindow c c.shortMin c.shortMax d then .short
  else if inWindow c c.longMin c.longMax d then .long
  else .invalid

/-- The parameter `FZS` as a bit symbol (R10). -/
def fzsSymbol : FallZeroShort → BitSymbol
  | .invalid => .invalid
  | .noBit => .noBit

/-- The rising-edge transition table RISE (R30). -/
def riseTable : DataBit → Pulse → BitSymbol
  | .zero, .short => .zero
  | .zero, .long => .invalid
  | .one, .short => .noBit
  | .one, .long => .zero

/-- The falling-edge transition table FALL, whose cell `(Zero, Short)` is the parameter `FZS` (R31). -/
def fallTable (f : FallZeroShort) : DataBit → Pulse → BitSymbol
  | .zero, .short => fzsSymbol f
  | .zero, .long => .one
  | .one, .short => .one
  | .one, .long => .invalid

/-- RESOLVE (R94), defined on its domain of valid pulses only (R95). -/
def resolve (c : Config) (dir : Direction) (last : DataBit) (p : Pulse) : BitSymbol :=
  match dir with
  | .rising => riseTable last p
  | .falling => fallTable c.fzs last p

/-- The index into a table ROM, `2·last + pulse[0]` (R69). -/
def romIndex (last : DataBit) (p : Pulse) : Nat :=
  2 * last.val + (p.toClass.code.extractLsb' 0 1).toNat

/-- The contents of the RISE ROM, as 2-bit codes (R69). -/
def riseRom : List (BitVec 2) := [0b00#2, 0b11#2, 0b10#2, 0b00#2]

/-- The contents of the FALL ROM, as 2-bit codes (R69). -/
def fallRom (f : FallZeroShort) : List (BitVec 2) := [(fzsSymbol f).code, 0b01#2, 0b01#2, 0b11#2]

/-- The ROM that an edge of direction `dir` reads (R69). -/
def rom (c : Config) : Direction → List (BitVec 2)
  | .rising => riseRom
  | .falling => fallRom c.fzs

end Sys2Proof.Machine
end

