-- ==== Sys2Proof/Machine/Edge.lean ====
section
/-! DEFINITION. The meaning of EDGE (41_controller.md R120 to R129), test by test in the order of R120 and R167. -/

namespace Sys2Proof.Machine

open Sys2Proof

/-- The branch of R128: `last <- b`, COMMIT, and `ready <- 1` when the frame completes. -/
def edgeBit (b : DataBit) (s : State) : State :=
  match (s.setLast b).commit b with
  | (.complete, s') => s'.setReady true
  | (.inProgress, s') => s'

/-- What a resolution does: latch (R126), nothing (R127), or commit a bit (R128). -/
def edgeResolved (sym : BitSymbol) (s : State) : State :=
  match sym with
  | .invalid => s.setErr true
  | .noBit => s
  | .zero => edgeBit .zero s
  | .one => edgeBit .one s

/-- Steps 3 and 4 of R120, for a valid pulse: synchronize (R124), reset under the latch (R125), or resolve. -/
def edgeValid (dir : Direction) (p : Pulse) (s : State) : State :=
  if s.sync = false then
    match dir with
    | .falling => s.setSync true
    | .rising => s
  else if s.err then s.resetToIdle.logCause .framingInconsistency
  else edgeResolved (resolve s.cfg dir s.last p) s

/-- The state after an EDGE (R120). -/
def edgeNext (dir : Direction) (dur : Nat) (s : State) : State :=
  if s.en = false then s
  else if s.ready then s.logCause .frameOverrun
  else
    match (classify s.cfg dur).pulse with
    | none => s.resetToIdle.logCause .timingOutOfRange
    | some p => edgeValid dir p s

/-- EDGE (R120). -/
def execEdge (dir : Direction) (dur : Nat) (s : State) : Host.Outcome State Fault Refusal :=
  .next (edgeNext dir dur s)

end Sys2Proof.Machine
end

