-- ==== Sys2Proof/Machine/Dispatch.lean ====
section
/-! DEFINITION. exec: one arm per event. -/

namespace Sys2Proof.Machine

open Sys2Proof

-- The meaning of one event (41_controller.md).
def exec (i : Instr) (s : State) : Host.Outcome State Fault Refusal :=
  match i with
  | .edge dir dur => Sys2Proof.Machine.execEdge dir dur s
  | .timeout => Sys2Proof.Machine.execTimeout s
  | .take => Sys2Proof.Machine.execTake s
  | .disable => Sys2Proof.Machine.execDisable s
  | .enable => Sys2Proof.Machine.execEnable s

end Sys2Proof.Machine
end

