-- ==== Sys2Proof/Machine/Ports.lean ====
section
/-! DEFINITION. The input ports (10_state.md R40): taking the next transaction off the environment's stream and saying what it
delivers to the block: nothing, power-on reset, an event, or a move the spec tells a model to refuse. -/

namespace Sys2Proof.Machine

open Sys2Proof

/-- What the next transaction delivers. -/
inductive Delivery where
  /-- No event: the state after the transaction. -/
  | quiet (s : State)
  /-- The event to execute, and the state it is executed on. -/
  | event (i : Instr) (s : State)
  /-- A move the environment does not have. -/
  | refuse (r : Refusal)
  deriving DecidableEq, Repr

/-- The transaction that presents one event word (R40). -/
def presentWord (w : Word) : Transaction := { rst := false, evValid := true, evWord := w }

/-- The transaction that presents an event. -/
def presentEvent (i : Instr) : Transaction := presentWord (encode i)

/-- The transaction of power-on reset (R190). -/
def presentReset : Transaction := { rst := true, evValid := false, evWord := 0#32 }

/-- The transaction in which no event is presented (R40). -/
def presentNothing : Transaction := { rst := false, evValid := false, evWord := 0#32 }

/-- The event word of a transaction, decoded for the configured duration width (R75); an illegal word is refused (R74). -/
def deliverWord (w : Word) (s : State) : Delivery :=
  match decode s.cfg.dw w with
  | .event i => .event i s
  | .illegal r => .refuse (.illegalWord r)

/-- What one transaction delivers to a state from whose stream it is taken: power-on reset (R190, R191), during which no event
word is accepted; an event word (R40); or nothing, which changes no state (log 6). -/
def deliverTransaction (tr : Transaction) (s : State) : Delivery :=
  if tr.rst then
    if tr.evValid then .refuse .eventDuringReset else .quiet s.powerOnReset
  else if tr.evValid then deliverWord tr.evWord s
  else .quiet s

/-- What the environment's next transaction delivers; there is no machine for an illegal configuration (R28). -/
def deliver (s : State) : Delivery :=
  if s.cfg.legal then
    match s.inputs with
    | [] => .quiet s
    | tr :: rest => deliverTransaction tr { s with inputs := rest }
  else .refuse .illegalConfiguration

/-- The state with one more transaction, the next to be taken, presenting the event word whose bits are `w` (log 5). -/
def presentNext (s : State) (nbits w : Nat) : State :=
  { s with inputs := presentWord (wordOfBits nbits w) :: s.inputs }

end Sys2Proof.Machine
end

