-- ==== Sys2Proof/Machine/Step.lean ====
section
/-! DEFINITION. One step: the next transaction, run whole (20_memory.md R55). -/

namespace Sys2Proof.Machine

open Sys2Proof

/-- One step takes the environment's next transaction and runs what it delivers. -/
def step (s : State) : Host.Outcome State Fault Refusal :=
  match deliver s with
  | .quiet s' => .next s'
  | .event i s' => exec i s'
  | .refuse r => .refused r

/-- `s` with the event word presented as the next transaction: what stands for the environment's sending it (log 5). -/
def State.withFetchWord (s : State) (nbits w : Nat) : State := presentNext s nbits w

end Sys2Proof.Machine
end

