-- ==== Sys2Proof/Machine/Assembler.lean ====
section
/-! DEFINITION. The textual form of event words: canonical lines (30_encoding.md R79) and pseudo-events (R80). A line is its
list of characters. What R79 does not say of blanks and of letter case is fixed in log 13. -/

namespace Sys2Proof.Machine

open Sys2Proof

/-- Why a line is refused. -/
inductive AsmError where
  /-- No canonical line and no pseudo-event. -/
  | unknownLine
  /-- A duration that is no number. -/
  | badNumber
  /-- A duration of `2^DW` or more (R72, R79). -/
  | durationTooWide
  deriving DecidableEq, Repr

/-- What a line says. -/
inductive AsmLine where
  /-- Blank, or a comment alone. -/
  | blank
  | event (i : Instr)
  | error (e : AsmError)
  deriving DecidableEq, Repr

/-- What a line assembles to. -/
inductive AsmWord where
  | nothing
  | word (w : Word)
  | error (e : AsmError)
  deriving DecidableEq, Repr

/-- `;` to end of line is a comment (R79). -/
def stripComment : List Char → List Char
  | [] => []
  | c :: cs => if c = ';' then [] else c :: stripComment cs

/-- A blank between tokens. -/
def isBlank (c : Char) : Bool := decide (c = ' ') || decide (c = '\t') || decide (c = '\r')

/-- A token, if any character of it has been read, before the tokens that follow it. -/
def flushToken (cur : List Char) (rest : List (List Char)) : List (List Char) :=
  match cur with
  | [] => rest
  | _ :: _ => cur :: rest

/-- The tokens of a line: words between blanks, a comma a token of its own; `cur` is the token being read. -/
def tokensFrom (cur : List Char) : List Char → List (List Char)
  | [] => flushToken cur []
  | c :: cs =>
    if isBlank c then flushToken cur (tokensFrom [] cs)
    else if c = ',' then flushToken cur ([','] :: tokensFrom [] cs)
    else tokensFrom (cur ++ [c]) cs

/-- The tokens of a line, in lower case (R79: case-insensitive). -/
def tokens (line : List Char) : List (List Char) := tokensFrom [] ((stripComment line).map Char.toLower)

/-- The value of a digit, in lower case. -/
def digitValue (c : Char) : Option Nat :=
  if '0'.toNat ≤ c.toNat ∧ c.toNat ≤ '9'.toNat then some (c.toNat - '0'.toNat)
  else if 'a'.toNat ≤ c.toNat ∧ c.toNat ≤ 'f'.toNat then some (c.toNat - 'a'.toNat + 10)
  else none

/-- Digits read after the value `acc`, most significant first. -/
def parseDigits (base acc : Nat) : List Char → Option Nat
  | [] => some acc
  | c :: cs =>
    match digitValue c with
    | some v => if v < base then parseDigits base (base * acc + v) cs else none
    | none => none

/-- One digit or more. -/
def parseDigits1 (base : Nat) : List Char → Option Nat
  | [] => none
  | c :: cs => parseDigits base 0 (c :: cs)

/-- A number in decimal or with a `0x` or `0b` prefix (R79). -/
def parseNumber : List Char → Option Nat
  | '0' :: 'x' :: ds => parseDigits1 16 ds
  | '0' :: 'b' :: ds => parseDigits1 2 ds
  | ds => parseDigits1 10 ds

/-- `r` is Rising, `f` is Falling (R79). -/
def parseDirection (tok : List Char) : Option Direction :=
  if tok = ['r'] then some .rising else if tok = ['f'] then some .falling else none

/-- An EDGE line whose duration is the token `num`. -/
def edgeLine (dir : Direction) (num : List Char) : AsmLine :=
  match parseNumber num with
  | some d => .event (.edge dir d)
  | none => .error .badNumber

/-- A line of one token: an event without operand (R79), or a pseudo-event whose duration is the configured `T` or `2T` (R80). -/
def parseWordLine (c : Config) (tok : List Char) : AsmLine :=
  if tok = "timeout".toList then .event .timeout
  else if tok = "take".toList then .event .take
  else if tok = "disable".toList then .event .disable
  else if tok = "enable".toList then .event .enable
  else if tok = "rise.s".toList then .event (.edge .rising c.t)
  else if tok = "rise.l".toList then .event (.edge .rising (2 * c.t))
  else if tok = "fall.s".toList then .event (.edge .falling c.t)
  else if tok = "fall.l".toList then .event (.edge .falling (2 * c.t))
  else .error .unknownLine

/-- The pseudo-events `rise <dur>` and `fall <dur>` (R80). -/
def parsePseudoEdge (tok num : List Char) : AsmLine :=
  if tok = "rise".toList then edgeLine .rising num
  else if tok = "fall".toList then edgeLine .falling num
  else .error .unknownLine

/-- The canonical line `edge r, <dur>` or `edge f, <dur>` (R79). -/
def parseEdge (tok dirTok comma num : List Char) : AsmLine :=
  if tok = "edge".toList ∧ comma = [','] then
    match parseDirection dirTok with
    | some dir => edgeLine dir num
    | none => .error .unknownLine
  else .error .unknownLine

/-- What the tokens of a line say. -/
def parseTokens (c : Config) : List (List Char) → AsmLine
  | [] => .blank
  | [tok] => parseWordLine c tok
  | [tok, num] => parsePseudoEdge tok num
  | [tok, dirTok, comma, num] => parseEdge tok dirTok comma num
  | _ => .error .unknownLine

/-- The assembler encodes a line as the word of R70 and refuses a duration that does not satisfy R72 (R79). -/
def assembleLine (c : Config) (line : List Char) : AsmWord :=
  match parseTokens c (tokens line) with
  | .blank => .nothing
  | .event i => if i.wellFormed c.dw then .word (encode i) else .error .durationTooWide
  | .error e => .error e

/-- The words of a text, one event per line; none if a line is refused. -/
def assemble (c : Config) : List (List Char) → Option (List Word)
  | [] => some []
  | line :: later =>
    match assembleLine c line with
    | .nothing => assemble c later
    | .word w => (assemble c later).map (fun ws => w :: ws)
    | .error _ => none

/-- The character of a digit, in lower case. -/
def digitChar (v : Nat) : Char := if v < 10 then Char.ofNat ('0'.toNat + v) else Char.ofNat ('a'.toNat + (v - 10))

/-- The decimal digits of `n` before `tail`, with fuel for as many digits. -/
def decimalFrom : Nat → Nat → List Char → List Char
  | 0, _, tail => tail
  | fuel + 1, n, tail =>
    if n < 10 then digitChar n :: tail else decimalFrom fuel (n / 10) (digitChar (n % 10) :: tail)

/-- A number in decimal. -/
def decimal (n : Nat) : List Char := decimalFrom (n + 1) n []

/-- The forms of a number (R79). -/
inductive NumberForm where
  | decimal
  | hexadecimal
  | binary
  deriving DecidableEq, Repr

/-- The base of a form. -/
def NumberForm.base : NumberForm → Nat
  | .decimal => 10
  | .hexadecimal => 16
  | .binary => 2

/-- What marks a form: nothing, `0x` or `0b` (R79). -/
def NumberForm.marker : NumberForm → List Char
  | .decimal => []
  | .hexadecimal => "0x".toList
  | .binary => "0b".toList

/-- A number as text, of its digits, the first most significant. -/
def NumberForm.text (f : NumberForm) (ds : List Nat) : List Char := f.marker ++ ds.map digitChar

/-- The number that digits stand for, the first most significant. -/
def NumberForm.value (f : NumberForm) (ds : List Nat) : Nat := ds.foldl (fun n v => f.base * n + v) 0

/-- The mnemonics of the canonical lines (R79) and the words of the pseudo-events (R80). -/
def mnemonics : List (List Char) :=
  ["edge".toList, "timeout".toList, "take".toList, "disable".toList, "enable".toList,
    "rise".toList, "fall".toList, "rise.s".toList, "rise.l".toList, "fall.s".toList, "fall.l".toList]

/-- What stands before the duration on an EDGE line (R79). -/
def edgeHead : Direction → List Char
  | .rising => "edge r, ".toList
  | .falling => "edge f, ".toList

/-- What stands before the duration of a pseudo-event (R80). -/
def pseudoHead : Direction → List Char
  | .rising => "rise ".toList
  | .falling => "fall ".toList

/-- The canonical line of an event (R79). -/
def canonicalLine : Instr → List Char
  | .edge dir dur => edgeHead dir ++ decimal dur
  | .timeout => "timeout".toList
  | .take => "take".toList
  | .disable => "disable".toList
  | .enable => "enable".toList

end Sys2Proof.Machine
end

