-- ==== Sys2Proof/Machine/Environment.lean ====
section
/-! DEFINITION. The environment's agents, duties and liberties (60_exceptions.md R172), as predicates on what it presents. No
meaning of an event reads them: they say which inputs a claim ranges over. -/

namespace Sys2Proof.Machine

open Sys2Proof

/-- The environment's agents (R172). -/
inductive Agent where
  | edgeProducer
  | timeoutProducer
  | consumer
  | transmitCoordinator
  | integrator
  deriving DecidableEq, Repr

/-- The agent that sends an event (R172). -/
def eventSender : Instr → Agent
  | .edge _ _ => .edgeProducer
  | .timeout => .timeoutProducer
  | .take => .consumer
  | .disable => .transmitCoordinator
  | .enable => .transmitCoordinator

/-- The agents that get something back: the consumer alone (R172). -/
def hearsResponse : Agent → Bool
  | .consumer => true
  | .edgeProducer => false
  | .timeoutProducer => false
  | .transmitCoordinator => false
  | .integrator => false

/-- A transaction within the integrator's duties (R172, R175): a legal event word, and none while `rst` is asserted (R190). -/
def hostLegal (c : Config) (tr : Transaction) : Bool :=
  if tr.rst then !tr.evValid
  else if tr.evValid then
    match decode c.dw tr.evWord with
    | .event _ => true
    | .illegal _ => false
  else true

/-- The duration the edge producer delivers for an interval of `d` ticks: longer ones are saturated (R202). -/
def saturate (c : Config) (d : Nat) : Nat := min d (2 ^ c.dw - 1)

/-- What a duration counter that wraps would deliver instead: the hazard of R202, not a liberty of the environment. -/
def wrapDuration (c : Config) (d : Nat) : Nat := d % 2 ^ c.dw

/-- Events that may arrive together: EDGE and TIMEOUT are never concurrent (R56, R168). -/
def mayArriveTogether (batch : List Instr) : Bool :=
  !(batch.any (fun i => decide (eventSender i = .edgeProducer))
    && batch.any (fun i => decide (eventSender i = .timeoutProducer)))

/-- `order` serialises batches of simultaneous events: each batch in any order of its own, the batches one after another
(R56, R168: every serialisation is admitted). -/
def Serialises : List (List Instr) → List Instr → Prop
  | [], order => order = []
  | batch :: later, order => ∃ now rest, now.Perm batch ∧ Serialises later rest ∧ order = now ++ rest

/-- With `TIMEOUT_WHILE_READY = false` the environment sends no TIMEOUT while a frame waits (R12, R200, D24). -/
def envSends (e : EnvParams) (s : State) (i : Instr) : Bool :=
  !(s.ready && decide (i = .timeout)) || e.timeoutWhileReady

end Sys2Proof.Machine
end

