-- ==== Sys2Proof/Safety.lean ====
section
/-! DEFINITION. The terms in which claims are made: the invariants of 10_state.md R35, runs of events (60_exceptions.md R180),
safe runs, and the reading of a run of edges through the tables alone. -/

namespace Sys2Proof.Machine

open Sys2Proof

/-- The invariants I1 to I6 of R35, of a machine with a legal configuration. I7 is a statement about steps; of I5 this holds the
bound, and which bits `acc` holds is a statement about runs. -/
structure State.Inv (s : State) : Prop where
  /-- The configuration is legal (R28). -/
  cfg_legal : s.cfg.legal = true
  /-- (I1) -/
  unsynced : s.sync = false →
    s.acc = 0 ∧ s.rem = s.cfg.w - 1 ∧ s.last = .one ∧ s.err = false ∧ s.ready = false
  /-- (I2) -/
  frame_ready : s.ready = true → s.sync = true ∧ s.err = false ∧ s.rem = 0
  /-- (I3) -/
  latched : s.err = true → s.sync = true ∧ s.ready = false ∧ 1 ≤ s.rem
  /-- (I4) -/
  partial_frame : s.sync = true → s.ready = false → 1 ≤ s.rem ∧ s.rem ≤ s.cfg.w - 1
  /-- (I5), the bound -/
  acc_bound : s.acc < 2 ^ (s.cfg.w - 1 - s.rem)
  /-- (I6) -/
  disabled : s.en = false → s.sync = false

/-- The empty form with `sync = 0` (R35 I1): what RESET_TO_IDLE leaves (R102). -/
def State.emptyForm (s : State) : Prop :=
  s.acc = 0 ∧ s.rem = s.cfg.w - 1 ∧ s.last = .one ∧ s.err = false ∧ s.sync = false ∧ s.ready = false

/-- A run of events, each the whole of one step (R180). -/
def execAll : List Instr → State → Host.Outcome State Fault Refusal
  | [], s => .next s
  | i :: is, s =>
    match exec i s with
    | .next t => execAll is t
    | .fault r => .fault r
    | .refused r => .refused r

/-- `s` is reached from power-on reset with configuration `c` by events (R35, R43). -/
def ReachedFrom (c : Config) (s : State) : Prop := ∃ is, execAll is (State.powerOn c) = .next s

/-- A run of `n` steps that neither faults nor is refused. -/
def SafeRun (n : Nat) (s : State) : Prop := ∃ t, Host.Core.run Sys2Proof.core n s = .next t

/-- An event on a state answers a next state, and that state is as `P` says. -/
def Goes (i : Instr) (s : State) (P : State → Prop) : Prop := ∃ t, exec i s = .next t ∧ P t

/-- Every event of a run is one the environment sends at the state it arrives in (R12). -/
def EnvAllows (e : EnvParams) : State → List Instr → Prop
  | _, [] => True
  | s, i :: is => envSends e s i = true ∧ ∀ t, exec i s = .next t → EnvAllows e t is

/-- An event whose delivery DISABLE suspends: EDGE or TIMEOUT (R29). -/
def isCallback : Instr → Bool
  | .edge _ _ => true
  | .timeout => true
  | .take => false
  | .disable => false
  | .enable => false

/-- The events of a run of edges. -/
def edgeEvents (es : List (Direction × Nat)) : List Instr := es.map (fun e => .edge e.1 e.2)

/-- The bits a run of edges stands for, read off CLASSIFY and the tables alone, with no machine state but the last bit; none if
an edge has an Invalid duration or resolves to Invalid (R90, R94). -/
def readEdges (c : Config) : DataBit → List (Direction × Nat) → Option (List DataBit)
  | _, [] => some []
  | last, (dir, d) :: es =>
    match (classify c d).pulse with
    | none => none
    | some p =>
      match resolve c dir last p with
      | .invalid => none
      | .noBit => readEdges c last es
      | .zero => (readEdges c .zero es).map (fun bs => .zero :: bs)
      | .one => (readEdges c .one es).map (fun bs => .one :: bs)

/-- The bit committed last, of a run of bits after the bit `last`. -/
def lastOf (last : DataBit) (bs : List DataBit) : DataBit := bs.getLastD last

/-- The number whose binary digits are `bs`, the first most significant (R21, R51). -/
def frameValue (bs : List DataBit) : Nat := bs.foldl (fun a b => 2 * a + b.val) 0

/-- The bits committed one after another (R100); the status is that of the last COMMIT. -/
def commitAll : List DataBit → State → FrameStatus × State
  | [], s => (.inProgress, s)
  | [b], s => s.commit b
  | b :: bs, s => commitAll bs (s.commit b).2

/-- The state the synchronizing edge leaves: enabled, phase established, the empty form otherwise (R124). -/
def State.justSynced (s : State) : Prop :=
  s.en = true ∧ s.sync = true ∧ s.ready = false ∧ s.err = false ∧ s.acc = 0 ∧ s.rem = s.cfg.w - 1 ∧ s.last = .one

end Sys2Proof.Machine
end

