-- ==== Sys2Proof/Certificates/Slice0/Obligations.lean ====
section
/-! DEFINITION. The statements for the provers. Each docstring names the rule of spec/ it formalises. -/

open Sys2Proof Sys2Proof.Machine

/-! ### Encoding -/

/-- R77: the worked encodings, at the duration widths the table names. -/
def Obligations.WorkedEncodingsDecode : Prop :=
  (∀ dw : Nat, dw = 16 ∨ dw = 27 →
    decode dw 0x10000708#32 = .event (.edge .falling 1800) ∧
    decode dw 0x18000384#32 = .event (.edge .rising 900) ∧
    decode dw 0x10000384#32 = .event (.edge .falling 900) ∧
    decode dw 0x18000708#32 = .event (.edge .rising 1800) ∧
    decode dw 0x18000000#32 = .event (.edge .rising 0) ∧
    decode dw 0x20000000#32 = .event .timeout ∧
    decode dw 0x30000000#32 = .event .take ∧
    decode dw 0x40000000#32 = .event .disable ∧
    decode dw 0x50000000#32 = .event .enable ∧
    decode dw 0x00000000#32 = .illegal .reservedOp ∧
    decode dw 0x60000000#32 = .illegal .reservedOp ∧
    decode dw 0xF0000000#32 = .illegal .reservedOp ∧
    decode dw 0x30000001#32 = .illegal .nonZeroOperand) ∧
  (∀ dw : Nat, 1 ≤ dw → dw ≤ 27 →
    (decode dw 0x17FFFFFF#32 = .event (.edge .falling (2 ^ 27 - 1)) ↔ dw = 27)) ∧
  decode 16 0x10010000#32 = .illegal .edgeDurationTooWide

/-- R70 to R73, R75: decoding the word of a well-formed event gives it back, for every duration and every duration width. -/
def Obligations.DecodeOfEncode : Prop :=
  ∀ (dw : Nat) (i : Instr), dw ≤ 27 → i.wellFormed dw = true → decode dw (encode i) = .event i

/-- R72, R73, R75: a word that decodes to an event is that event's only word, and the event is well formed. -/
def Obligations.EncodeOfDecode : Prop :=
  ∀ (dw : Nat) (w : Word) (i : Instr), decode dw w = .event i → encode i = w ∧ i.wellFormed dw = true

/-- R74: exactly the words of the rule are illegal, each for its reason, and an illegal word is refused. -/
def Obligations.IllegalWordsAreRefused : Prop :=
  (∀ (dw : Nat) (w : Word),
    (decode dw w = .illegal .reservedOp ↔ w.toNat / 2 ^ 28 = 0 ∨ 6 ≤ w.toNat / 2 ^ 28) ∧
    (decode dw w = .illegal .edgeDurationTooWide ↔
      w.toNat / 2 ^ 28 = 1 ∧ dw < 27 ∧ w.toNat % 2 ^ 27 / 2 ^ dw ≠ 0) ∧
    (decode dw w = .illegal .nonZeroOperand ↔
      2 ≤ w.toNat / 2 ^ 28 ∧ w.toNat / 2 ^ 28 ≤ 5 ∧ w.toNat % 2 ^ 28 ≠ 0)) ∧
  (∀ (s : State) (w : Word) (rest : List Transaction) (r : IllegalReason),
    s.cfg.legal = true → s.inputs = presentWord w :: rest → decode s.cfg.dw w = .illegal r →
    step s = .refused (.illegalWord r))

/-- R79, R72: the assembler encodes the canonical line of every well-formed event as its word, and refuses an EDGE line whose
duration is `2^DW` or more. The other forms of a line that R79 gives are those of LineFormsAssemble. -/
def Obligations.CanonicalLinesAssemble : Prop :=
  ∀ (c : Config) (i : Instr), assembleLine c (canonicalLine i) =
    if i.wellFormed c.dw then .word (encode i) else .error .durationTooWide

/-- R79: the forms of a line besides the canonical one. A duration in any of the three number forms, leading zeros included, is
read as the number its digits stand for, on an EDGE line and on the pseudo-event's (R80); a mnemonic is read in any letter case,
whatever follows it; what stands from a `;` on is not read. Hexadecimal digits stand here in lower case: that they are read in
either case, as the letters of a direction are, is the model's choice (log 13) and no part of this statement. -/
def Obligations.LineFormsAssemble : Prop :=
  (∀ (c : Config) (dir : Direction) (f : NumberForm) (ds : List Nat), ds ≠ [] → (∀ v ∈ ds, v < f.base) →
    assembleLine c (edgeHead dir ++ f.text ds) =
      (if f.value ds < 2 ^ c.dw then .word (encode (.edge dir (f.value ds))) else .error .durationTooWide) ∧
    assembleLine c (pseudoHead dir ++ f.text ds) = assembleLine c (edgeHead dir ++ f.text ds)) ∧
  (∀ (c : Config) (m m' rest : List Char), m ∈ mnemonics → m'.map Char.toLower = m →
    assembleLine c (m' ++ rest) = assembleLine c (m ++ rest)) ∧
  (∀ (c : Config) (line comment : List Char), assembleLine c (line ++ ';' :: comment) = assembleLine c line)

/-! ### Configuration and classifier -/

/-- R13: `RW = ceil(log2 W)`, the rule's examples, and that both registers hold their values in their widths. -/
def Obligations.RegisterWidths : Prop :=
  (∀ c : Config, 2 ≤ c.w → c.rw = Nat.clog 2 c.w) ∧
  (∀ c : Config, (c.w = 2 → c.rw = 1) ∧ (c.w = 14 → c.rw = 4) ∧ (c.w = 32 → c.rw = 5)) ∧
  (∀ s : State, s.Inv → s.rem ≤ s.cfg.w - 1 ∧ s.rem < 2 ^ s.cfg.rw ∧ s.acc < 2 ^ s.cfg.w)

/-- R28: what a legal configuration is, in the source's terms and in the rule's, and that no machine runs with another. -/
def Obligations.LegalConfigurations : Prop :=
  (∀ c : Config, c.legal = true ↔
    (c.shortMin < c.shortMax ∧ c.shortMax < c.longMin ∧ c.longMin < c.longMax ∧
      ∃ d, c.shortMax ≤ d ∧ d < c.longMin ∧ classify c d = .invalid) ∧
    2 ≤ c.w ∧ 1 ≤ c.dw ∧ c.dw ≤ 27) ∧
  (∀ c : Config, c.legal = true ↔
    1 ≤ c.tol ∧ (c.upperInclusive = false → 2 * c.tol < c.t) ∧ (c.upperInclusive = true → 2 * c.tol + 1 < c.t) ∧
    2 ≤ c.w ∧ 1 ≤ c.dw ∧ c.dw ≤ 27) ∧
  (∀ (c : Config) (d : Nat), c.legal = true →
    ¬ (inWindow c c.shortMin c.shortMax d = true ∧ inWindow c c.longMin c.longMax d = true)) ∧
  (∀ s : State, s.cfg.legal = false → step s = .refused .illegalConfiguration) ∧
  (∀ u : Bool, { Config.standard with upperInclusive := u }.legal = true)

/-- R90: CLASSIFY, by its two windows, for every configuration and duration. -/
def Obligations.ClassifyByWindows : Prop :=
  (∀ (c : Config) (d : Nat),
    (classify c d = .short ↔
      c.shortMin ≤ d ∧ (d < c.shortMax ∨ c.upperInclusive = true ∧ d = c.shortMax)) ∧
    (classify c d = .long ↔
      ¬ (c.shortMin ≤ d ∧ (d < c.shortMax ∨ c.upperInclusive = true ∧ d = c.shortMax)) ∧
      c.longMin ≤ d ∧ (d < c.longMax ∨ c.upperInclusive = true ∧ d = c.longMax)) ∧
    (classify c d = .invalid ↔ classify c d ≠ .short ∧ classify c d ≠ .long)) ∧
  (∀ c : Config, c.t = 900 → c.tol = 270 →
    classify c 900 = .short ∧ classify c 1800 = .long ∧ classify c 1350 = .invalid)

/-- R91, R92: the lower bounds are inside, the upper bounds exactly with `UPPER_INCLUSIVE`, and no other duration depends on the
parameter; with the source's own boundary values. -/
def Obligations.WindowBounds : Prop :=
  (∀ c : Config, c.legal = true →
    classify c c.shortMin = .short ∧ classify c c.longMin = .long ∧
    classify c c.shortMax = (if c.upperInclusive then .short else .invalid) ∧
    classify c c.longMax = (if c.upperInclusive then .long else .invalid)) ∧
  (∀ (c : Config) (d : Nat), c.legal = true → d ≠ c.shortMax → d ≠ c.longMax →
    classify { c with upperInclusive := true } d = classify { c with upperInclusive := false } d) ∧
  (∀ c : Config, c.t = 900 → c.tol = 270 →
    classify c 629 = .invalid ∧ classify c 630 = .short ∧ classify c 1169 = .short ∧ classify c 1171 = .invalid ∧
    classify c 1529 = .invalid ∧ classify c 1530 = .long ∧ classify c 2069 = .long ∧ classify c 2071 = .invalid ∧
    classify c 1170 = (if c.upperInclusive then .short else .invalid) ∧
    classify c 2070 = (if c.upperInclusive then .long else .invalid))

/-- R93: the corner cases of CLASSIFY for a legal configuration: zero, below and between the windows, above them, the gap is not
empty, and a duration input too narrow for a window never delivers its class. -/
def Obligations.ClassifyCorners : Prop :=
  ∀ c : Config, c.legal = true →
    classify c 0 = .invalid ∧
    (∀ d, d < c.shortMin → classify c d = .invalid) ∧
    (∀ d, c.shortMax < d → d < c.longMin → classify c d = .invalid) ∧
    (∀ d, c.longMax < d → classify c d = .invalid) ∧
    (c.upperInclusive = false →
      (∀ d, c.shortMax ≤ d → d < c.longMin → classify c d = .invalid) ∧
      (∀ d, c.longMax ≤ d → classify c d = .invalid)) ∧
    (∃ d, c.shortMax ≤ d ∧ d < c.longMin ∧ classify c d = .invalid) ∧
    (2 ^ c.dw - 1 < c.longMin → ∀ d, d < 2 ^ c.dw → classify c d ≠ .long) ∧
    (2 ^ c.dw - 1 < c.shortMin → ∀ d, d < 2 ^ c.dw → classify c d ≠ .short)

/-- R195 (3), R202: with the boot condition every interval too long for the duration input is delivered as an Invalid
duration; a counter that wraps could deliver it as a Short one. -/
def Obligations.SaturatedIntervalsAreInvalid : Prop :=
  (∀ (c : Config) (n : Nat), c.legal = true → c.bootCheck = true →
    saturate c n < 2 ^ c.dw ∧ (n < 2 ^ c.dw → saturate c n = n) ∧
    (2 ^ c.dw ≤ n → classify c (saturate c n) = .invalid)) ∧
  (∃ (c : Config) (n : Nat), c.legal = true ∧ c.bootCheck = true ∧ 2 ^ c.dw ≤ n ∧
    classify c (wrapDuration c n) = .short)

/-- R80: the six pseudo-events stand for their canonical lines, and the configured `T` and `2T` are a Short and a Long. -/
def Obligations.PseudoEvents : Prop :=
  (∀ c : Config, c.legal = true → classify c c.t = .short ∧ classify c (2 * c.t) = .long) ∧
  (∀ c : Config,
    assembleLine c "rise.s".toList = assembleLine c (canonicalLine (.edge .rising c.t)) ∧
    assembleLine c "rise.l".toList = assembleLine c (canonicalLine (.edge .rising (2 * c.t))) ∧
    assembleLine c "fall.s".toList = assembleLine c (canonicalLine (.edge .falling c.t)) ∧
    assembleLine c "fall.l".toList = assembleLine c (canonicalLine (.edge .falling (2 * c.t)))) ∧
  (∀ (c : Config) (d : Nat),
    assembleLine c ("rise ".toList ++ decimal d) = assembleLine c (canonicalLine (.edge .rising d)) ∧
    assembleLine c ("fall ".toList ++ decimal d) = assembleLine c (canonicalLine (.edge .falling d)))

/-! ### Resolver and accumulator -/

/-- R96: the eight results of RESOLVE at `FZS = Invalid`. -/
def Obligations.ResolveResults : Prop :=
  ∀ c : Config, c.fzs = .invalid →
    resolve c .rising .zero .short = .zero ∧ resolve c .rising .zero .long = .invalid ∧
    resolve c .rising .one .short = .noBit ∧ resolve c .rising .one .long = .zero ∧
    resolve c .falling .zero .short = .invalid ∧ resolve c .falling .zero .long = .one ∧
    resolve c .falling .one .short = .one ∧ resolve c .falling .one .long = .invalid

/-- R69: the tables as ROMs of codes, addressed by `2·last + pulse[0]`. -/
def Obligations.RomsHoldTheTables : Prop :=
  (∀ (c : Config) (dir : Direction) (last : DataBit) (p : Pulse),
    (rom c dir)[romIndex last p]? = some (resolve c dir last p).code) ∧
  (∀ c : Config, rom c .rising = [0b00#2, 0b11#2, 0b10#2, 0b00#2]) ∧
  (∀ c : Config, c.fzs = .invalid → rom c .falling = [0b11#2, 0b01#2, 0b01#2, 0b11#2]) ∧
  (∀ c : Config, c.fzs = .noBit → rom c .falling = [0b10#2, 0b01#2, 0b01#2, 0b11#2]) ∧
  romIndex .zero .short = 0 ∧ romIndex .zero .long = 1 ∧ romIndex .one .short = 2 ∧ romIndex .one .long = 3

/-- R98: COMMIT in arithmetic, on its domain (R99), with the rule's worked example; nothing else is written. -/
def Obligations.CommitShiftsAndCounts : Prop :=
  (∀ (s : State) (b : DataBit), 2 ≤ s.cfg.w → 1 ≤ s.rem → s.rem ≤ s.cfg.w - 1 →
    s.commit b = (if s.rem = 1 then .complete else .inProgress,
      { s with acc := (2 * s.acc + b.val) % 2 ^ s.cfg.w, rem := s.rem - 1 })) ∧
  (∀ s : State, s.cfg.w = 8 → s.acc = 0b101 → s.rem = 4 →
    s.commit .one = (.inProgress, { s with acc := 0b1011, rem := 3 }))

/-- R100, R101: from the empty accumulator, exactly the `(W-1)`-th COMMIT returns Complete; the accumulator then holds the
committed bits, none lost, and bit `W-1` is 0. -/
def Obligations.FrameCompletesAtLastBit : Prop :=
  ∀ (s : State) (bs : List DataBit), 2 ≤ s.cfg.w → s.acc = 0 → s.rem = s.cfg.w - 1 → bs ≠ [] → bs.length ≤ s.cfg.w - 1 →
    commitAll bs s = (if bs.length = s.cfg.w - 1 then .complete else .inProgress,
      { s with acc := frameValue bs, rem := s.cfg.w - 1 - bs.length }) ∧
    frameValue bs < 2 ^ bs.length ∧ (frameValue bs).testBit (s.cfg.w - 1) = false

/-! ### Reset, ports, step -/

/-- R42: the reset values, after power-on reset and after RESET_TO_IDLE. -/
def Obligations.ResetValues : Prop :=
  (∀ c : Config, (State.powerOn c).block =
      { acc := 0, rem := c.w - 1, last := .one, err := false, sync := false, ready := false, en := c.enableAtReset } ∧
    (State.powerOn c).view = .idle) ∧
  (∀ s : State, s.resetToIdle.block =
      { acc := 0, rem := s.cfg.w - 1, last := .one, err := false, sync := false, ready := false, en := s.en } ∧
    s.resetToIdle.view = .idle)

/-- R190, R191: a transaction with `rst` asserted, in any state, sets every field to its reset value and logs PowerOn; an event
word presented with it is refused. That it is one transaction is the model's choice (log 7). -/
def Obligations.PowerOnResetByPort : Prop :=
  ∀ (s : State) (tr : Transaction) (rest : List Transaction), s.cfg.legal = true → s.inputs = tr :: rest → tr.rst = true →
    (tr.evValid = false → step s = .next { State.powerOn s.cfg with
        inputs := rest, outs := s.outs, log := s.log ++ [.powerOn] }) ∧
    (tr.evValid = true → step s = .refused .eventDuringReset)

/-- R55, R75: when the next transaction presents a word that decodes to an event, the step is that event, run on the state from
which the transaction has been taken. -/
def Obligations.StepRunsTheDecodedEvent : Prop :=
  ∀ (s : State) (tr : Transaction) (rest : List Transaction) (i : Instr), s.cfg.legal = true → s.inputs = tr :: rest →
    tr.rst = false → tr.evValid = true → decode s.cfg.dw tr.evWord = .event i →
    step s = exec i { s with inputs := rest }

/-- The model's choice (log 6): a transaction without an event, or no transaction at all, changes nothing of the block. -/
def Obligations.NoEventChangesNothing : Prop :=
  ∀ s : State, s.cfg.legal = true →
    (s.inputs = [] → step s = .next s) ∧
    (∀ (tr : Transaction) (rest : List Transaction), s.inputs = tr :: rest → tr.rst = false → tr.evValid = false →
      step s = .next { s with inputs := rest })

/-- R205: no step changes the configuration, which is a field of State (log 1). That a step takes the first transaction of a
list, and none where the list has come to its end, is the model's choice (logs 5 and 6). -/
def Obligations.ConfigurationIsStatic : Prop :=
  ∀ s t : State, step s = .next t → t.cfg = s.cfg ∧ t.inputs = s.inputs.tail

/-! ### EDGE -/

/-- R121: while disabled, EDGE changes nothing at all. -/
def Obligations.EdgeWhileDisabled : Prop :=
  ∀ (s : State) (dir : Direction) (d : Nat), s.en = false → exec (.edge dir d) s = .next s

/-- R122, R163: while a frame is ready, EDGE changes no field of the block, whatever its direction and duration; while enabled
it logs FrameOverrun. -/
def Obligations.EdgeWhileFrameReady : Prop :=
  ∀ (s : State) (dir : Direction) (d : Nat), s.ready = true →
    exec (.edge dir d) s = .next { s with log := if s.en then s.log ++ [.frameOverrun] else s.log }

/-- R123, R161: an Invalid duration resets, whatever the state and the direction; it is a no-op on the unsynchronized block, and
under the latch it leaves the block that R125 leaves. -/
def Obligations.EdgeWithInvalidDuration : Prop :=
  ∀ (s : State) (dir : Direction) (d : Nat), s.en = true → s.ready = false → classify s.cfg d = .invalid →
    exec (.edge dir d) s = .next { s with
      acc := 0, rem := s.cfg.w - 1, last := .one, err := false, sync := false, ready := false,
      log := s.log ++ [.timingOutOfRange] } ∧
    (s.Inv → s.sync = false → Goes (.edge dir d) s (fun t => t.block = s.block)) ∧
    (∀ (dir' : Direction) (d' : Nat), s.sync = true → s.err = true → classify s.cfg d' ≠ .invalid →
      ∃ t u, exec (.edge dir d) s = .next t ∧ exec (.edge dir' d') s = .next u ∧ t.block = u.block)

/-- R124: before synchronization a valid Falling edge sets `sync` and nothing else, and a valid Rising edge changes nothing; in
the reset state the Falling edge leaves the synchronized empty form. -/
def Obligations.EdgeBeforeSynchronization : Prop :=
  ∀ (s : State) (d : Nat), s.en = true → s.ready = false → classify s.cfg d ≠ .invalid → s.sync = false →
    exec (.edge .falling d) s = .next { s with sync := true } ∧
    exec (.edge .rising d) s = .next s ∧
    (s.emptyForm → Goes (.edge .falling d) s State.justSynced)

/-- R125, R162: while the latch is set a valid edge resets and does nothing else; a Falling one does not synchronize. -/
def Obligations.EdgeUnderTheLatch : Prop :=
  ∀ (s : State) (dir : Direction) (d : Nat), s.en = true → s.ready = false → classify s.cfg d ≠ .invalid →
    s.sync = true → s.err = true →
    exec (.edge dir d) s = .next { s with
      acc := 0, rem := s.cfg.w - 1, last := .one, err := false, sync := false, ready := false,
      log := s.log ++ [.framingInconsistency] }

/-- R126: a resolution to Invalid latches the error and writes nothing else; the next event that is no TAKE resets. -/
def Obligations.EdgeLatchesTheError : Prop :=
  ∀ (s : State) (dir : Direction) (d : Nat) (p : Pulse), s.en = true → s.ready = false →
    (classify s.cfg d).pulse = some p → s.sync = true → s.err = false → resolve s.cfg dir s.last p = .invalid →
    exec (.edge dir d) s = .next { s with err := true } ∧
    ∀ i : Instr, i ≠ .take → Goes i { s with err := true } State.emptyForm

/-- R127: a resolution to NoBit changes nothing at all. -/
def Obligations.EdgeWithoutABit : Prop :=
  ∀ (s : State) (dir : Direction) (d : Nat) (p : Pulse), s.en = true → s.ready = false →
    (classify s.cfg d).pulse = some p → s.sync = true → s.err = false → resolve s.cfg dir s.last p = .noBit →
    exec (.edge dir d) s = .next s

/-- R128, R98: a resolution to a bit sets `last`, commits it, and sets `ready` exactly when it fills the last slot. -/
def Obligations.EdgeCommitsABit : Prop :=
  ∀ (s : State) (dir : Direction) (d : Nat) (p : Pulse) (b : DataBit), s.cfg.legal = true → s.en = true → s.ready = false →
    (classify s.cfg d).pulse = some p → s.sync = true → s.err = false → 1 ≤ s.rem → s.rem ≤ s.cfg.w - 1 →
    resolve s.cfg dir s.last p = b.toSymbol →
    exec (.edge dir d) s = .next { s with
      last := b, acc := (2 * s.acc + b.val) % 2 ^ s.cfg.w, rem := s.rem - 1, ready := decide (s.rem = 1) }

/-- R167: every EDGE answers a next state, and the first of the conditions that holds decides the one cause it logs, if any. -/
def Obligations.EdgeReportsOneCause : Prop :=
  ∀ (s : State) (dir : Direction) (d : Nat), Goes (.edge dir d) s (fun t =>
    t.log = s.log ++
      (if s.en = false then []
      else if s.ready = true then [.frameOverrun]
      else if classify s.cfg d = .invalid then [.timingOutOfRange]
      else if s.sync = false then []
      else if s.err = true then [.framingInconsistency]
      else []))

/-- R97: in a synchronized, error-free block a Rising edge never commits a One and a Falling edge never a Zero, and an edge of a
Long pulse never goes by without a bit or the latch. -/
def Obligations.DirectionDecidesTheBit : Prop :=
  ∀ s : State, s.Inv → s.en = true → s.view = .accumulating →
    (∀ (d : Nat), Goes (.edge .rising d) s (fun t => t.rem = s.rem - 1 → t.last = .zero ∧ t.acc = 2 * s.acc)) ∧
    (∀ (d : Nat), Goes (.edge .falling d) s (fun t => t.rem = s.rem - 1 → t.last = .one ∧ t.acc = 2 * s.acc + 1)) ∧
    (∀ (dir : Direction) (d : Nat), classify s.cfg d = .long → Goes (.edge dir d) s (fun t => t ≠ s))

/-! ### TIMEOUT, TAKE, DISABLE, ENABLE -/

/-- R130, R131, R164: TIMEOUT resets from every state while enabled, and changes nothing while disabled; on the states that
runs reach, the reading in which it reset while disabled would leave the same fields. -/
def Obligations.TimeoutResets : Prop :=
  ∀ s : State,
    (s.en = true → exec .timeout s = .next { s with
      acc := 0, rem := s.cfg.w - 1, last := .one, err := false, sync := false, ready := false,
      log := s.log ++ [.signalTimeout] }) ∧
    (s.en = false → exec .timeout s = .next s) ∧
    (s.Inv → s.en = false → s.resetToIdle.block = s.block)

/-- R140, R141: TAKE drains a ready frame, responding with the accumulator before the reset; else it responds None and writes no
field. It does not read `en`; while disabled it responds None. -/
def Obligations.TakeDrainsOrNothing : Prop :=
  ∀ s : State,
    (s.ready = true → exec .take s = .next { s with
      acc := 0, rem := s.cfg.w - 1, last := .one, err := false, sync := false, ready := false,
      outs := s.outs ++ [some s.acc], log := s.log ++ [.drained] }) ∧
    (s.ready = false → exec .take s = .next { s with outs := s.outs ++ [none] }) ∧
    (s.Inv → s.en = false → exec .take s = .next { s with outs := s.outs ++ [none] })

/-- R145: DISABLE resets and clears `en`. -/
def Obligations.DisableResets : Prop :=
  ∀ s : State, exec .disable s = .next { s with
    acc := 0, rem := s.cfg.w - 1, last := .one, err := false, sync := false, ready := false, en := false,
    log := s.log ++ [.disabled] }

/-- R150: ENABLE resets and sets `en`. -/
def Obligations.EnableResets : Prop :=
  ∀ s : State, exec .enable s = .next { s with
    acc := 0, rem := s.cfg.w - 1, last := .one, err := false, sync := false, ready := false, en := true,
    log := s.log ++ [.enabled] }

/-- R78: a TAKE has one response and no other event has any, with the ports of each response. -/
def Obligations.OnlyTakeResponds : Prop :=
  (∀ (i : Instr) (s : State), Goes i s (fun t =>
    t.outs = s.outs ++ (if i = .take then [if s.ready then some s.acc else none] else []))) ∧
  (∀ f : Nat, takePorts (some f) = (1#1, f)) ∧ takePorts none = (0#1, 0)

/-- R166: the codes of the causes, and for a cause that an event logs: which event can log it, and whether the event resets (the
block is then the empty form) or leaves the block alone. -/
def Obligations.LoggedCauses : Prop :=
  causeCode none = 0 ∧
  [Cause.timingOutOfRange, .framingInconsistency, .signalTimeout, .frameOverrun, .drained, .disabled, .enabled, .powerOn].map
    (fun c => causeCode (some c)) = [1, 2, 3, 4, 5, 6, 7, 8] ∧
  ∀ (i : Instr) (s t : State) (c : Cause), exec i s = .next t → t.log = s.log ++ [c] →
    (c.resets = true → t.emptyForm) ∧ (c.resets = false → t.block = s.block) ∧
    match i with
    | .edge _ _ => c = .timingOutOfRange ∨ c = .framingInconsistency ∨ c = .frameOverrun
    | .timeout => c = .signalTimeout
    | .take => c = .drained
    | .disable => c = .disabled
    | .enable => c = .enabled

/-- R61: TIMEOUT, DISABLE and ENABLE are idempotent on the block; TAKE is when no frame is ready, and two TAKEs return a value
and then nothing; EDGE is not idempotent. -/
def Obligations.IdempotentEvents : Prop :=
  (∀ (s : State) (i : Instr), i = .timeout ∨ i = .disable ∨ i = .enable →
    Goes i s (fun t => Goes i t (fun u => u.block = t.block))) ∧
  (∀ s : State, s.ready = false → Goes .take s (fun t => t.block = s.block)) ∧
  (∀ s : State, s.ready = true → Goes .take s (fun t => t.block ≠ s.block ∧
    Goes .take t (fun u => u.outs = s.outs ++ [some s.acc, none]))) ∧
  (∃ (s : State) (d : Nat), s.Inv ∧ Goes (.edge .falling d) s (fun t => Goes (.edge .falling d) t (fun u => u.block ≠ t.block)))

/-! ### The machine as a whole -/

/-- R35: the invariants hold at power-on reset, for every legal configuration. -/
def Obligations.InvariantAtReset : Prop :=
  (∀ c : Config, c.legal = true → (State.powerOn c).Inv) ∧ State.reset.Inv

/-- R35: every step keeps the invariants, from any state that has them. -/
def Obligations.InvariantKeptByStep : Prop :=
  ∀ s t : State, s.Inv → step s = .next t → t.Inv

/-- R35, I1 to I4, I6, I7 and the bound of I5, of every state that events reach from power-on reset. -/
def Obligations.ReachableStates : Prop :=
  ∀ (c : Config) (s : State), c.legal = true → ReachedFrom c s →
    s.cfg = c ∧
    (s.sync = false → s.emptyForm) ∧
    (s.ready = true → s.sync = true ∧ s.err = false ∧ s.rem = 0) ∧
    (s.err = true → s.sync = true ∧ s.ready = false ∧ 1 ≤ s.rem) ∧
    (s.sync = true → s.ready = false → 1 ≤ s.rem ∧ s.rem ≤ c.w - 1) ∧
    s.acc < 2 ^ (c.w - 1 - s.rem) ∧ s.acc.testBit (c.w - 1) = false ∧
    (s.en = false → s.emptyForm) ∧
    (s.ready = true → ∀ (dir : Direction) (d : Nat), Goes (.edge dir d) s (fun t => t.block = s.block))

/-- R155: the summary of transitions, row by row, for states with the invariants. -/
def Obligations.TransitionSummary : Prop :=
  ∀ s : State, s.Inv →
    (s.en = true →
      -- Idle
      (s.view = .idle →
        (∀ dir d, classify s.cfg d = .invalid → Goes (.edge dir d) s (fun t => t.view = .idle)) ∧
        (∀ d, classify s.cfg d ≠ .invalid →
          Goes (.edge .falling d) s (fun t => t.view = .accumulating ∧ t.rem = s.cfg.w - 1)) ∧
        (∀ d, classify s.cfg d ≠ .invalid → Goes (.edge .rising d) s (fun t => t.view = .idle)) ∧
        Goes .take s (fun t => t.block = s.block ∧ t.outs = s.outs ++ [none])) ∧
      -- Accumulating
      (s.view = .accumulating →
        (∀ dir d, classify s.cfg d = .invalid → Goes (.edge dir d) s (fun t => t.view = .idle)) ∧
        (∀ dir d p, (classify s.cfg d).pulse = some p →
          (resolve s.cfg dir s.last p = .invalid → Goes (.edge dir d) s (fun t => t.view = .error)) ∧
          (resolve s.cfg dir s.last p = .noBit → Goes (.edge dir d) s (fun t => t.block = s.block)) ∧
          (∀ b : DataBit, resolve s.cfg dir s.last p = b.toSymbol →
            Goes (.edge dir d) s (fun t => t.view = if s.rem = 1 then .frameReady else .accumulating))) ∧
        Goes .take s (fun t => t.block = s.block ∧ t.outs = s.outs ++ [none])) ∧
      -- Error
      (s.view = .error →
        (∀ dir d, Goes (.edge dir d) s (fun t => t.view = .idle)) ∧
        Goes .take s (fun t => t.block = s.block ∧ t.outs = s.outs ++ [none])) ∧
      -- FrameReady
      (s.view = .frameReady →
        (∀ dir d, Goes (.edge dir d) s (fun t => t.block = s.block)) ∧
        Goes .take s (fun t => t.view = .idle ∧ t.outs = s.outs ++ [some s.acc])) ∧
      -- every state
      Goes .timeout s (fun t => t.view = .idle ∧ t.en = true) ∧
      Goes .disable s (fun t => t.view = .idle ∧ t.en = false) ∧
      Goes .enable s (fun t => t.view = .idle ∧ t.en = true)) ∧
    -- Idle with en = 0
    (s.en = false →
      s.view = .idle ∧
      (∀ dir d, Goes (.edge dir d) s (fun t => t.block = s.block)) ∧
      Goes .timeout s (fun t => t.block = s.block) ∧
      Goes .take s (fun t => t.block = s.block ∧ t.outs = s.outs ++ [none]) ∧
      Goes .disable s (fun t => t.block = s.block) ∧
      Goes .enable s (fun t => t.view = .idle ∧ t.en = true))

/-- R37, R38: who writes what, from any state: an event leaves the configuration, the inputs and, unless it is a TAKE, the
responses alone; `en` changes by DISABLE and ENABLE only; a flag rises by an EDGE only, and falls only in a reset to the empty
form; `acc`, `rem` and `last` change only by an EDGE that commits or in such a reset. -/
def Obligations.WhoWritesWhat : Prop :=
  ∀ (i : Instr) (s t : State), exec i s = .next t →
    t.cfg = s.cfg ∧ t.inputs = s.inputs ∧
    (t.outs ≠ s.outs → i = .take) ∧
    (t.en ≠ s.en → i = .disable ∧ t.en = false ∨ i = .enable ∧ t.en = true) ∧
    (s.sync = false → t.sync = true → ∃ d, i = .edge .falling d ∧ classify s.cfg d ≠ .invalid) ∧
    (s.ready = false → t.ready = true → (∃ dir d, i = .edge dir d) ∧ t.rem = 0) ∧
    (s.err = false → t.err = true → (∃ dir d, i = .edge dir d) ∧ t = s.setErr true) ∧
    (s.sync = true → t.sync = false → t.emptyForm) ∧
    (s.ready = true → t.ready = false → t.emptyForm ∧ ∀ dir d, i ≠ .edge dir d) ∧
    (s.err = true → t.err = false → t.emptyForm) ∧
    (t.acc ≠ s.acc ∨ t.rem ≠ s.rem ∨ t.last ≠ s.last →
      t.emptyForm ∨ (∃ dir d, i = .edge dir d) ∧ t.acc = shiftIn s.cfg s.acc t.last ∧ t.rem = decRem s.cfg s.rem)

/-- R160: from a legal configuration, with only legal transactions presented, a run of any length neither faults nor is refused.
Past the end of the list of transactions the run goes on by the model's choice that a step with none idles (log 6). -/
def Obligations.LegalRunsNeverStop : Prop :=
  ∀ s : State, s.cfg.legal = true → (∀ tr ∈ s.inputs, hostLegal s.cfg tr = true) → ∀ n : Nat, SafeRun n s

/-- R55 to R57, R70, R180: a run of the machine on the words of well-formed events is the run of those events in their order;
that the words stand in a list of transactions is the model's choice (log 5). -/
def Obligations.WordRunsAreEventRuns : Prop :=
  ∀ (s : State) (is : List Instr) (rest : List Transaction), s.cfg.legal = true →
    (∀ i ∈ is, i.wellFormed s.cfg.dw = true) → s.inputs = is.map presentEvent ++ rest →
    Host.Core.run Sys2Proof.core is.length s = execAll is { s with inputs := rest }

/-- R51: every frame handed out is below `2^(W-1)`; kept by every step from a state with the invariants of R35. -/
def Obligations.DrainedFramesAreShort : Prop :=
  ∀ s t : State, s.Inv → (∀ f, some f ∈ s.outs → f < 2 ^ (s.cfg.w - 1)) → step s = .next t →
    ∀ f, some f ∈ t.outs → f < 2 ^ (t.cfg.w - 1)

/-- R120, R128: from the synchronized empty form, a run of edges leaves exactly what the tables alone make of it: the bits read
so far, and a ready frame at the `(W-1)`-th and not before. -/
def Obligations.EdgeRunsFollowTheTables : Prop :=
  ∀ (s : State) (es : List (Direction × Nat)) (bs : List DataBit), s.cfg.legal = true → s.justSynced →
    readEdges s.cfg .one es = some bs →
    (bs.length < s.cfg.w - 1 →
      execAll (edgeEvents es) s = .next { s with
        acc := frameValue bs, rem := s.cfg.w - 1 - bs.length, last := lastOf .one bs }) ∧
    (∀ (e : Direction × Nat) (b : DataBit), bs.length = s.cfg.w - 2 → readEdges s.cfg .one (es ++ [e]) = some (bs ++ [b]) →
      execAll (edgeEvents (es ++ [e])) s = .next { s with
        acc := frameValue (bs ++ [b]), rem := 0, last := b, ready := true })

/-- R51: after `k` bits, `k` at most `W - 1`, the `j`-th committed bit stands at bit `k - j` of the accumulator and no higher bit
is set. Of a completed frame the value that a TAKE hands out has the first committed bit at bit `W - 2`, the last at bit 0, the
`j`-th at bit `W - 1 - j`, and bit `W - 1`, as every bit above it, is 0. -/
def Obligations.FirstCommittedBitIsHighest : Prop :=
  ∀ (s : State) (es : List (Direction × Nat)) (bs : List DataBit), s.cfg.legal = true → s.justSynced →
    readEdges s.cfg .one es = some bs → bs.length ≤ s.cfg.w - 1 →
    (∃ t, execAll (edgeEvents es) s = .next t ∧
      (∀ (j : Nat) (b : DataBit), 1 ≤ j → bs[j - 1]? = some b → t.acc.testBit (bs.length - j) = decide (b = .one)) ∧
      (∀ n, bs.length ≤ n → t.acc.testBit n = false)) ∧
    (bs.length = s.cfg.w - 1 → ∃ t f, execAll (edgeEvents es ++ [.take]) s = .next t ∧ t.outs = s.outs ++ [some f] ∧
      (∀ b : DataBit, bs.head? = some b → f.testBit (s.cfg.w - 2) = decide (b = .one)) ∧
      (∀ b : DataBit, bs.getLast? = some b → f.testBit 0 = decide (b = .one)) ∧
      (∀ (j : Nat) (b : DataBit), 1 ≤ j → bs[j - 1]? = some b → f.testBit (s.cfg.w - 1 - j) = decide (b = .one)) ∧
      (∀ n, s.cfg.w - 1 ≤ n → f.testBit n = false))

/-- Every frame can be received: for every `W - 1` bits some run of edges from power-on reset is drained as exactly that frame,
with durations the input can carry where the boot condition holds (R30, R31, R98, R140, R195).The run need not alternate
directions: a physical waveform cannot bring two Zero bits in a row (R129, R207). -/
def Obligations.EveryFrameIsReceivable : Prop :=
  ∀ (c : Config) (bs : List DataBit), c.legal = true → c.enableAtReset = true → bs.length = c.w - 1 →
    ∃ (es : List (Direction × Nat)) (t : State),
      execAll (edgeEvents es ++ [.take]) (State.powerOn c) = .next t ∧ t.outs = [some (frameValue bs)] ∧
      (c.bootCheck = true → ∀ i ∈ edgeEvents es, i.wellFormed c.dw = true)

/-- R96, R207: with `FZS = Invalid`, edges of alternating directions never commit two Zero bits in a row. -/
def Obligations.AlternatingEdgesNoDoubleZero : Prop :=
  ∀ (c : Config) (last : DataBit) (es : List (Direction × Nat)) (bs : List DataBit), c.fzs = .invalid →
    (es.map Prod.fst).IsChain (fun a b => a ≠ b) → readEdges c last es = some bs →
    bs.IsChain (fun a b => ¬ (a = .zero ∧ b = .zero))

/-- R206: after an EDGE that resolves to Invalid, the next valid edge is consumed by the reset, so a Falling edge synchronizes
only at the one after it. -/
def Obligations.LatchCostsOneEdge : Prop :=
  ∀ (s : State) (dir dir' : Direction) (d d' d'' : Nat) (p : Pulse), s.en = true → s.ready = false → s.sync = true →
    s.err = false → (classify s.cfg d).pulse = some p → resolve s.cfg dir s.last p = .invalid →
    classify s.cfg d' ≠ .invalid → classify s.cfg d'' ≠ .invalid →
    (∃ t, execAll [.edge dir d, .edge dir' d'] s = .next t ∧ t.emptyForm) ∧
    (∃ t, execAll [.edge dir d, .edge dir' d', .edge .falling d''] s = .next t ∧ t.justSynced)

/-- R170, R201: from the empty form, edges that are Rising or of an Invalid duration leave it, and the next valid Falling edge
synchronizes. -/
def Obligations.ResynchronizesOnFallingEdge : Prop :=
  ∀ (s : State) (es : List (Direction × Nat)) (d : Nat), s.emptyForm → s.en = true →
    (∀ e ∈ es, e.1 = .rising ∨ classify s.cfg e.2 = .invalid) → classify s.cfg d ≠ .invalid →
    (∃ t, execAll (edgeEvents es) s = .next t ∧ t.block = s.block) ∧
    (∃ t, execAll (edgeEvents es ++ [.edge .falling d]) s = .next t ∧ t.justSynced)

/-- R121, R131: while disabled, no run of EDGE and TIMEOUT events changes anything. -/
def Obligations.DisabledIgnoresCallbacks : Prop :=
  ∀ (s : State) (is : List Instr), s.en = false → (∀ i ∈ is, isCallback i = true) → execAll is s = .next s

/-- R122, R140, R204: a ready frame outlives any run of edges, each logged as FrameOverrun, and is what the TAKE after them
returns. -/
def Obligations.ReadyFrameOutlivesEdges : Prop :=
  ∀ (s : State) (es : List (Direction × Nat)), s.en = true → s.ready = true →
    execAll (edgeEvents es) s = .next { s with log := s.log ++ List.replicate es.length .frameOverrun } ∧
    ∃ t, execAll (edgeEvents es ++ [.take]) s = .next t ∧ t.outs = s.outs ++ [some s.acc] ∧ t.emptyForm

/-- R200: a TIMEOUT, DISABLE or ENABLE between a frame's completion and the TAKE discards it; where the environment sends no
TIMEOUT while a frame waits, edges and timeouts do not. -/
def Obligations.FrameLostBeforeDrain : Prop :=
  (∀ (s : State) (i : Instr), s.ready = true → (i = .timeout ∧ s.en = true) ∨ i = .disable ∨ i = .enable →
    ∃ t, execAll [i, .take] s = .next t ∧ t.outs = s.outs ++ [none] ∧ t.emptyForm) ∧
  (∀ (e : EnvParams) (s : State) (is : List Instr), e.timeoutWhileReady = false → s.ready = true →
    (∀ i ∈ is, isCallback i = true) → EnvAllows e s is →
    ∃ t, execAll is s = .next t ∧ t.block = s.block)

/-- R56, R168: a TAKE and a TIMEOUT that arrive together are serialised in either order, and the two orders are observed
differently: the frame, or nothing. An EDGE and a TIMEOUT never arrive together. -/
def Obligations.SimultaneousTakeAndTimeout : Prop :=
  (∀ s : State, s.ready = true → s.en = true →
    (∃ order t, Serialises [[.take, .timeout]] order ∧ execAll order s = .next t ∧ t.outs = s.outs ++ [some s.acc]) ∧
    (∃ order t, Serialises [[.take, .timeout]] order ∧ execAll order s = .next t ∧ t.outs = s.outs ++ [none]) ∧
    (∀ order t, Serialises [[.take, .timeout]] order → execAll order s = .next t →
      t.emptyForm ∧ (t.outs = s.outs ++ [some s.acc] ∨ t.outs = s.outs ++ [none]))) ∧
  (∀ (dir : Direction) (d : Nat), mayArriveTogether [.edge dir d, .timeout] = false) ∧
  mayArriveTogether [.take, .timeout] = true

/-- R24, R44: under the latch the value of `last` is never read: two machines that differ in it alone respond and log alike in
every run, and are equal as soon as the latch is cleared. -/
def Obligations.LastIsUnreadUnderTheLatch : Prop :=
  ∀ (s : State) (b : DataBit) (is : List Instr) (t : State), s.err = true → execAll is s = .next t →
    ∃ u, execAll is (s.setLast b) = .next u ∧ u.outs = t.outs ∧ u.log = t.log ∧ u.lastBit = t.lastBit ∧
      (t.err = false → u = t)

/-- R104: a reset leaves no trace of the frame it discards: whatever the block held, after a DISABLE, an ENABLE or, while
enabled, a TIMEOUT, every run goes on alike. -/
def Obligations.ResetLeavesNoTrace : Prop :=
  ∀ (s s' : State) (i : Instr) (is : List Instr), s'.cfg = s.cfg → s'.en = s.en → s'.inputs = s.inputs → s'.outs = s.outs →
    s'.log = s.log → (i = .timeout ∧ s.en = true) ∨ i = .disable ∨ i = .enable →
    execAll (i :: is) s' = execAll (i :: is) s

/-- R37, R141: the accumulator steers nothing: two machines that differ in it alone stay alike in every other field and in
the log through every run, and answer each TAKE alike but for a frame's value. -/
def Obligations.AccumulatorSteersNothing : Prop :=
  ∀ (s : State) (a : Nat) (is : List Instr) (t : State), execAll is s = .next t →
    ∃ u, execAll is { s with acc := a } = .next u ∧
      { u.block with acc := 0 } = { t.block with acc := 0 } ∧ u.log = t.log ∧
      u.outs.map Option.isSome = t.outs.map Option.isSome
end

