-- ==== Sys2Proof/Laws/Assembler.lean ====
section
/-! SUPPORT. What the assembler's shared functions do, once each: a digit's character, digits as a number, comments. -/

namespace Sys2Proof.Machine

open Sys2Proof

/-- A digit's character is read as the digit, and is a letter of a token in lower case. -/
theorem digitChar_facts (v : Nat) (h : v < 16) :
    digitValue (digitChar v) = some v ∧ isBlank (digitChar v) = false ∧ digitChar v ≠ ',' ∧ digitChar v ≠ ';' ∧
    (digitChar v).toLower = digitChar v ∧ digitChar v ≠ 'x' ∧ (v < 10 → digitChar v ≠ 'b') := by
  interval_cases v <;> decide

/-- Digits below the base are read as the number they stand for. -/
theorem parseDigits_digits (base : Nat) (hb : base ≤ 16) (ds : List Nat) (h : ∀ v ∈ ds, v < base) (a : Nat) :
    parseDigits base a (ds.map digitChar) = some (ds.foldl (fun n v => base * n + v) a) := by
  induction ds generalizing a with
  | nil => rfl
  | cons v ds ih =>
    have hv := h v (by simp)
    simp only [List.map_cons, parseDigits, (digitChar_facts v (by omega)).1, hv, if_true, List.foldl_cons]
    exact ih (fun w hw => h w (by simp [hw])) _

/-- Text without a `;` is kept before whatever follows it. -/
theorem stripComment_append (l r : List Char) (h : ∀ c ∈ l, c ≠ ';') : stripComment (l ++ r) = l ++ stripComment r := by
  induction l with
  | nil => rfl
  | cons c l ih => simp [stripComment, h c (by simp), ih (fun c hc => h c (by simp [hc]))]

/-- Characters that end no token make one token with what has been read of it. -/
theorem tokensFrom_word (cs cur : List Char) (h : ∀ c ∈ cs, isBlank c = false ∧ c ≠ ',') :
    tokensFrom cur cs = flushToken (cur ++ cs) [] := by
  induction cs generalizing cur with
  | nil => simp [tokensFrom]
  | cons c cs ih =>
    simp [tokensFrom, (h c (by simp)).1, (h c (by simp)).2, ih _ (fun c hc => h c (by simp [hc]))]

end Sys2Proof.Machine
end

