-- ==== Sys2Proof/Laws/Decode.lean ====
section
/-! SUPPORT. The fields of a word and the word of an event, in arithmetic (30_encoding.md R70 to R72). -/

namespace Sys2Proof

/-- The field `op` of a word (R70). -/
theorem opField_toNat (w : Word) : (opField w).toNat = w.toNat / 2 ^ 28 := by
  have := w.isLt
  simp [opField, BitVec.extractLsb'_toNat, Nat.shiftRight_eq_div_pow]
  omega

/-- The field `dur` of a word (R70). -/
theorem durField_toNat (w : Word) : (durField w).toNat = w.toNat % 2 ^ 27 := by
  simp [durField, BitVec.extractLsb'_toNat]

/-- Bits 27:0 of a word (R73). -/
theorem operandField_toNat (w : Word) : (operandField w).toNat = w.toNat % 2 ^ 28 := by
  simp [operandField, BitVec.extractLsb'_toNat]

/-- The field `dir` of a word (R70). -/
theorem dirField_toNat (w : Word) : (dirField w).toNat = w.toNat / 2 ^ 27 % 2 := by
  simp [dirField, BitVec.extractLsb'_toNat, Nat.shiftRight_eq_div_pow]

/-- An operation code is read off as a number. -/
theorem opField_eq_iff (w : Word) (k : Nat) (hk : k < 16) : opField w = BitVec.ofNat 4 k ↔ w.toNat / 2 ^ 28 = k := by
  rw [← BitVec.toNat_inj, opField_toNat, BitVec.toNat_ofNat, Nat.mod_eq_of_lt (by simpa using hk)]

/-- Operand bits that are zero, as a number. -/
theorem operandField_eq_zero_iff (w : Word) : operandField w = 0#28 ↔ w.toNat % 2 ^ 28 = 0 := by
  rw [← BitVec.toNat_inj, operandField_toNat]
  simp

/-- The bits of a duration above the duration width, as a number (R72). -/
theorem durField_shift_eq_zero_iff (w : Word) (dw : Nat) :
    durField w >>> dw = 0#27 ↔ w.toNat % 2 ^ 27 / 2 ^ dw = 0 := by
  rw [← BitVec.toNat_inj, BitVec.toNat_ushiftRight, durField_toNat, Nat.shiftRight_eq_div_pow]
  simp

/-- Two bit fields side by side, as a number. -/
theorem toNat_fields {m n : Nat} (x : BitVec m) (y : BitVec n) : (x ++ y).toNat = x.toNat * 2 ^ n + y.toNat := by
  rw [BitVec.toNat_append, ← Nat.shiftLeft_add_eq_or_of_lt y.isLt, Nat.shiftLeft_eq]

/-- The word of an EDGE as a number (R70 to R72). -/
theorem encode_edge_toNat (dir : Direction) (d : Nat) :
    (encode (.edge dir d)).toNat = 2 ^ 28 + dir.code.toNat * 2 ^ 27 + d % 2 ^ 27 := by
  refine (toNat_fields _ _).trans ?_
  refine (congrArg _ (toNat_fields dir.code _)).trans ?_
  cases dir
  · simp [Instr.opcode, Direction.code]
  · simp [Instr.opcode, Direction.code]
    omega

end Sys2Proof
end

