-- ==== Sys2Proof/Laws/State.lean ====
section
/-! SUPPORT. The small lemmas of State: one per field per update, true by unfolding, so that no later proof unfolds a record
update. -/

namespace Sys2Proof.Machine

open Sys2Proof

/-! `setLast` -/

@[simp] theorem State.setLast_cfg (s : State) (b : DataBit) : (s.setLast b).cfg = s.cfg := rfl
@[simp] theorem State.setLast_acc (s : State) (b : DataBit) : (s.setLast b).acc = s.acc := rfl
@[simp] theorem State.setLast_rem (s : State) (b : DataBit) : (s.setLast b).rem = s.rem := rfl
@[simp] theorem State.setLast_last (s : State) (b : DataBit) : (s.setLast b).last = b := rfl
@[simp] theorem State.setLast_err (s : State) (b : DataBit) : (s.setLast b).err = s.err := rfl
@[simp] theorem State.setLast_sync (s : State) (b : DataBit) : (s.setLast b).sync = s.sync := rfl
@[simp] theorem State.setLast_ready (s : State) (b : DataBit) : (s.setLast b).ready = s.ready := rfl
@[simp] theorem State.setLast_en (s : State) (b : DataBit) : (s.setLast b).en = s.en := rfl
@[simp] theorem State.setLast_inputs (s : State) (b : DataBit) : (s.setLast b).inputs = s.inputs := rfl
@[simp] theorem State.setLast_outs (s : State) (b : DataBit) : (s.setLast b).outs = s.outs := rfl
@[simp] theorem State.setLast_log (s : State) (b : DataBit) : (s.setLast b).log = s.log := rfl

/-! `setErr` -/

@[simp] theorem State.setErr_cfg (s : State) (v : Bool) : (s.setErr v).cfg = s.cfg := rfl
@[simp] theorem State.setErr_acc (s : State) (v : Bool) : (s.setErr v).acc = s.acc := rfl
@[simp] theorem State.setErr_rem (s : State) (v : Bool) : (s.setErr v).rem = s.rem := rfl
@[simp] theorem State.setErr_last (s : State) (v : Bool) : (s.setErr v).last = s.last := rfl
@[simp] theorem State.setErr_err (s : State) (v : Bool) : (s.setErr v).err = v := rfl
@[simp] theorem State.setErr_sync (s : State) (v : Bool) : (s.setErr v).sync = s.sync := rfl
@[simp] theorem State.setErr_ready (s : State) (v : Bool) : (s.setErr v).ready = s.ready := rfl
@[simp] theorem State.setErr_en (s : State) (v : Bool) : (s.setErr v).en = s.en := rfl
@[simp] theorem State.setErr_inputs (s : State) (v : Bool) : (s.setErr v).inputs = s.inputs := rfl
@[simp] theorem State.setErr_outs (s : State) (v : Bool) : (s.setErr v).outs = s.outs := rfl
@[simp] theorem State.setErr_log (s : State) (v : Bool) : (s.setErr v).log = s.log := rfl

/-! `setSync` -/

@[simp] theorem State.setSync_cfg (s : State) (v : Bool) : (s.setSync v).cfg = s.cfg := rfl
@[simp] theorem State.setSync_acc (s : State) (v : Bool) : (s.setSync v).acc = s.acc := rfl
@[simp] theorem State.setSync_rem (s : State) (v : Bool) : (s.setSync v).rem = s.rem := rfl
@[simp] theorem State.setSync_last (s : State) (v : Bool) : (s.setSync v).last = s.last := rfl
@[simp] theorem State.setSync_err (s : State) (v : Bool) : (s.setSync v).err = s.err := rfl
@[simp] theorem State.setSync_sync (s : State) (v : Bool) : (s.setSync v).sync = v := rfl
@[simp] theorem State.setSync_ready (s : State) (v : Bool) : (s.setSync v).ready = s.ready := rfl
@[simp] theorem State.setSync_en (s : State) (v : Bool) : (s.setSync v).en = s.en := rfl
@[simp] theorem State.setSync_inputs (s : State) (v : Bool) : (s.setSync v).inputs = s.inputs := rfl
@[simp] theorem State.setSync_outs (s : State) (v : Bool) : (s.setSync v).outs = s.outs := rfl
@[simp] theorem State.setSync_log (s : State) (v : Bool) : (s.setSync v).log = s.log := rfl

/-! `setReady` -/

@[simp] theorem State.setReady_cfg (s : State) (v : Bool) : (s.setReady v).cfg = s.cfg := rfl
@[simp] theorem State.setReady_acc (s : State) (v : Bool) : (s.setReady v).acc = s.acc := rfl
@[simp] theorem State.setReady_rem (s : State) (v : Bool) : (s.setReady v).rem = s.rem := rfl
@[simp] theorem State.setReady_last (s : State) (v : Bool) : (s.setReady v).last = s.last := rfl
@[simp] theorem State.setReady_err (s : State) (v : Bool) : (s.setReady v).err = s.err := rfl
@[simp] theorem State.setReady_sync (s : State) (v : Bool) : (s.setReady v).sync = s.sync := rfl
@[simp] theorem State.setReady_ready (s : State) (v : Bool) : (s.setReady v).ready = v := rfl
@[simp] theorem State.setReady_en (s : State) (v : Bool) : (s.setReady v).en = s.en := rfl
@[simp] theorem State.setReady_inputs (s : State) (v : Bool) : (s.setReady v).inputs = s.inputs := rfl
@[simp] theorem State.setReady_outs (s : State) (v : Bool) : (s.setReady v).outs = s.outs := rfl
@[simp] theorem State.setReady_log (s : State) (v : Bool) : (s.setReady v).log = s.log := rfl

/-! `setEn` -/

@[simp] theorem State.setEn_cfg (s : State) (v : Bool) : (s.setEn v).cfg = s.cfg := rfl
@[simp] theorem State.setEn_acc (s : State) (v : Bool) : (s.setEn v).acc = s.acc := rfl
@[simp] theorem State.setEn_rem (s : State) (v : Bool) : (s.setEn v).rem = s.rem := rfl
@[simp] theorem State.setEn_last (s : State) (v : Bool) : (s.setEn v).last = s.last := rfl
@[simp] theorem State.setEn_err (s : State) (v : Bool) : (s.setEn v).err = s.err := rfl
@[simp] theorem State.setEn_sync (s : State) (v : Bool) : (s.setEn v).sync = s.sync := rfl
@[simp] theorem State.setEn_ready (s : State) (v : Bool) : (s.setEn v).ready = s.ready := rfl
@[simp] theorem State.setEn_en (s : State) (v : Bool) : (s.setEn v).en = v := rfl
@[simp] theorem State.setEn_inputs (s : State) (v : Bool) : (s.setEn v).inputs = s.inputs := rfl
@[simp] theorem State.setEn_outs (s : State) (v : Bool) : (s.setEn v).outs = s.outs := rfl
@[simp] theorem State.setEn_log (s : State) (v : Bool) : (s.setEn v).log = s.log := rfl

/-! `resetToIdle` -/

@[simp] theorem State.resetToIdle_cfg (s : State) : (s.resetToIdle).cfg = s.cfg := rfl
@[simp] theorem State.resetToIdle_acc (s : State) : (s.resetToIdle).acc = 0 := rfl
@[simp] theorem State.resetToIdle_rem (s : State) : (s.resetToIdle).rem = s.cfg.w - 1 := rfl
@[simp] theorem State.resetToIdle_last (s : State) : (s.resetToIdle).last = .one := rfl
@[simp] theorem State.resetToIdle_err (s : State) : (s.resetToIdle).err = false := rfl
@[simp] theorem State.resetToIdle_sync (s : State) : (s.resetToIdle).sync = false := rfl
@[simp] theorem State.resetToIdle_ready (s : State) : (s.resetToIdle).ready = false := rfl
@[simp] theorem State.resetToIdle_en (s : State) : (s.resetToIdle).en = s.en := rfl
@[simp] theorem State.resetToIdle_inputs (s : State) : (s.resetToIdle).inputs = s.inputs := rfl
@[simp] theorem State.resetToIdle_outs (s : State) : (s.resetToIdle).outs = s.outs := rfl
@[simp] theorem State.resetToIdle_log (s : State) : (s.resetToIdle).log = s.log := rfl

/-! `logCause` -/

@[simp] theorem State.logCause_cfg (s : State) (c : Cause) : (s.logCause c).cfg = s.cfg := rfl
@[simp] theorem State.logCause_acc (s : State) (c : Cause) : (s.logCause c).acc = s.acc := rfl
@[simp] theorem State.logCause_rem (s : State) (c : Cause) : (s.logCause c).rem = s.rem := rfl
@[simp] theorem State.logCause_last (s : State) (c : Cause) : (s.logCause c).last = s.last := rfl
@[simp] theorem State.logCause_err (s : State) (c : Cause) : (s.logCause c).err = s.err := rfl
@[simp] theorem State.logCause_sync (s : State) (c : Cause) : (s.logCause c).sync = s.sync := rfl
@[simp] theorem State.logCause_ready (s : State) (c : Cause) : (s.logCause c).ready = s.ready := rfl
@[simp] theorem State.logCause_en (s : State) (c : Cause) : (s.logCause c).en = s.en := rfl
@[simp] theorem State.logCause_inputs (s : State) (c : Cause) : (s.logCause c).inputs = s.inputs := rfl
@[simp] theorem State.logCause_outs (s : State) (c : Cause) : (s.logCause c).outs = s.outs := rfl
@[simp] theorem State.logCause_log (s : State) (c : Cause) : (s.logCause c).log = s.log ++ [c] := rfl

/-! `respond` -/

@[simp] theorem State.respond_cfg (s : State) (r : Option Nat) : (s.respond r).cfg = s.cfg := rfl
@[simp] theorem State.respond_acc (s : State) (r : Option Nat) : (s.respond r).acc = s.acc := rfl
@[simp] theorem State.respond_rem (s : State) (r : Option Nat) : (s.respond r).rem = s.rem := rfl
@[simp] theorem State.respond_last (s : State) (r : Option Nat) : (s.respond r).last = s.last := rfl
@[simp] theorem State.respond_err (s : State) (r : Option Nat) : (s.respond r).err = s.err := rfl
@[simp] theorem State.respond_sync (s : State) (r : Option Nat) : (s.respond r).sync = s.sync := rfl
@[simp] theorem State.respond_ready (s : State) (r : Option Nat) : (s.respond r).ready = s.ready := rfl
@[simp] theorem State.respond_en (s : State) (r : Option Nat) : (s.respond r).en = s.en := rfl
@[simp] theorem State.respond_inputs (s : State) (r : Option Nat) : (s.respond r).inputs = s.inputs := rfl
@[simp] theorem State.respond_outs (s : State) (r : Option Nat) : (s.respond r).outs = s.outs ++ [r] := rfl
@[simp] theorem State.respond_log (s : State) (r : Option Nat) : (s.respond r).log = s.log := rfl

/-! `powerOnReset` -/

@[simp] theorem State.powerOnReset_cfg (s : State) : (s.powerOnReset).cfg = s.cfg := rfl
@[simp] theorem State.powerOnReset_acc (s : State) : (s.powerOnReset).acc = 0 := rfl
@[simp] theorem State.powerOnReset_rem (s : State) : (s.powerOnReset).rem = s.cfg.w - 1 := rfl
@[simp] theorem State.powerOnReset_last (s : State) : (s.powerOnReset).last = .one := rfl
@[simp] theorem State.powerOnReset_err (s : State) : (s.powerOnReset).err = false := rfl
@[simp] theorem State.powerOnReset_sync (s : State) : (s.powerOnReset).sync = false := rfl
@[simp] theorem State.powerOnReset_ready (s : State) : (s.powerOnReset).ready = false := rfl
@[simp] theorem State.powerOnReset_en (s : State) : (s.powerOnReset).en = s.cfg.enableAtReset := rfl
@[simp] theorem State.powerOnReset_inputs (s : State) : (s.powerOnReset).inputs = s.inputs := rfl
@[simp] theorem State.powerOnReset_outs (s : State) : (s.powerOnReset).outs = s.outs := rfl
@[simp] theorem State.powerOnReset_log (s : State) : (s.powerOnReset).log = s.log ++ [.powerOn] := rfl

/-! COMMIT -/

@[simp] theorem State.commit_cfg (s : State) (b : DataBit) : (s.commit b).2.cfg = s.cfg := rfl
@[simp] theorem State.commit_acc (s : State) (b : DataBit) : (s.commit b).2.acc = shiftIn s.cfg s.acc b := rfl
@[simp] theorem State.commit_rem (s : State) (b : DataBit) : (s.commit b).2.rem = decRem s.cfg s.rem := rfl
@[simp] theorem State.commit_last (s : State) (b : DataBit) : (s.commit b).2.last = s.last := rfl
@[simp] theorem State.commit_err (s : State) (b : DataBit) : (s.commit b).2.err = s.err := rfl
@[simp] theorem State.commit_sync (s : State) (b : DataBit) : (s.commit b).2.sync = s.sync := rfl
@[simp] theorem State.commit_ready (s : State) (b : DataBit) : (s.commit b).2.ready = s.ready := rfl
@[simp] theorem State.commit_en (s : State) (b : DataBit) : (s.commit b).2.en = s.en := rfl
@[simp] theorem State.commit_inputs (s : State) (b : DataBit) : (s.commit b).2.inputs = s.inputs := rfl
@[simp] theorem State.commit_outs (s : State) (b : DataBit) : (s.commit b).2.outs = s.outs := rfl
@[simp] theorem State.commit_log (s : State) (b : DataBit) : (s.commit b).2.log = s.log := rfl

/-! Power-on reset -/

@[simp] theorem State.powerOn_cfg (c : Config) : (State.powerOn c).cfg = c := rfl
@[simp] theorem State.powerOn_acc (c : Config) : (State.powerOn c).acc = 0 := rfl
@[simp] theorem State.powerOn_rem (c : Config) : (State.powerOn c).rem = c.w - 1 := rfl
@[simp] theorem State.powerOn_last (c : Config) : (State.powerOn c).last = .one := rfl
@[simp] theorem State.powerOn_err (c : Config) : (State.powerOn c).err = false := rfl
@[simp] theorem State.powerOn_sync (c : Config) : (State.powerOn c).sync = false := rfl
@[simp] theorem State.powerOn_ready (c : Config) : (State.powerOn c).ready = false := rfl
@[simp] theorem State.powerOn_en (c : Config) : (State.powerOn c).en = c.enableAtReset := rfl
@[simp] theorem State.powerOn_inputs (c : Config) : (State.powerOn c).inputs = [] := rfl
@[simp] theorem State.powerOn_outs (c : Config) : (State.powerOn c).outs = [] := rfl
@[simp] theorem State.powerOn_log (c : Config) : (State.powerOn c).log = [.powerOn] := rfl

/-! The state record -/

@[simp] theorem State.block_acc (s : State) : s.block.acc = s.acc := rfl
@[simp] theorem State.block_rem (s : State) : s.block.rem = s.rem := rfl
@[simp] theorem State.block_last (s : State) : s.block.last = s.last := rfl
@[simp] theorem State.block_err (s : State) : s.block.err = s.err := rfl
@[simp] theorem State.block_sync (s : State) : s.block.sync = s.sync := rfl
@[simp] theorem State.block_ready (s : State) : s.block.ready = s.ready := rfl
@[simp] theorem State.block_en (s : State) : s.block.en = s.en := rfl

end Sys2Proof.Machine
end

