-- ==== Sys2Proof/Laws/Ops.lean ====
section
/-! SUPPORT. For each shared operation, what it does, said once: later proofs cite these and do not unfold it. -/

namespace Sys2Proof.Machine

open Sys2Proof

@[simp] theorem val_zero : DataBit.val .zero = 0 := rfl
@[simp] theorem val_one : DataBit.val .one = 1 := rfl

/-- A bit's value is 0 or 1. -/
theorem val_lt_two (b : DataBit) : b.val < 2 := by cases b <;> simp

/-- The shift of COMMIT, in arithmetic (R98). -/
theorem shiftIn_eq (c : Config) (acc : Nat) (b : DataBit) : shiftIn c acc b = (2 * acc + b.val) % 2 ^ c.w := by
  have h : acc <<< 1 ||| b.val = 2 ^ 1 * acc + b.val := by
    rw [Nat.shiftLeft_eq, Nat.mul_comm, Nat.two_pow_add_eq_or_of_lt (by simpa using val_lt_two b)]
  rw [shiftIn, h, pow_one]

/-- A legal count of slots fits the counter's width (R13, R22). -/
theorem lt_two_pow_rw (c : Config) (n : Nat) (h : n ≤ c.w - 1) : n < 2 ^ c.rw := by
  unfold Config.rw
  exact lt_of_le_of_lt h Nat.lt_log2_self

/-- Counting down a count that fits its width and is not 0 (R98, R99). -/
theorem decRem_eq (c : Config) (n : Nat) (h1 : 1 ≤ n) (h2 : n < 2 ^ c.rw) : decRem c n = n - 1 := by
  have e : n + (2 ^ c.rw - 1) = (n - 1) + 2 ^ c.rw := by omega
  rw [decRem, e, Nat.add_mod_right, Nat.mod_eq_of_lt (by omega)]

/-- Which status COMMIT returns: that of the decremented count (R98). -/
theorem commit_status (s : State) (b : DataBit) :
    (s.commit b).1 = if decRem s.cfg s.rem = 0 then .complete else .inProgress := rfl

/-- What CLASSIFY can answer, and on what ground (R90). -/
theorem classify_cases (c : Config) (d : Nat) :
    (inWindow c c.shortMin c.shortMax d = true ∧ classify c d = .short) ∨
    (inWindow c c.shortMin c.shortMax d = false ∧ inWindow c c.longMin c.longMax d = true ∧ classify c d = .long) ∨
    (inWindow c c.shortMin c.shortMax d = false ∧ inWindow c c.longMin c.longMax d = false ∧ classify c d = .invalid) := by
  unfold classify
  cases h : inWindow c c.shortMin c.shortMax d <;> cases h' : inWindow c c.longMin c.longMax d <;> simp

/-- A window in arithmetic (R91, R92). -/
theorem inWindow_iff (c : Config) (lo hi d : Nat) :
    inWindow c lo hi d = true ↔ lo ≤ d ∧ (d < hi ∨ c.upperInclusive = true ∧ d = hi) := by
  simp [inWindow]

/-- The pulse of a duration is there exactly when the duration is valid (R95). -/
theorem pulse_eq_none_iff (p : PulseClass) : p.pulse = none ↔ p = .invalid := by cases p <;> simp [PulseClass.pulse]

/-- The pulse of a duration is of the duration's class (R66, R95). -/
theorem pulse_eq_some_iff (p : PulseClass) (q : Pulse) : p.pulse = some q ↔ p = q.toClass := by
  cases p <;> cases q <;> simp [PulseClass.pulse, Pulse.toClass]

/-- Legality in arithmetic (R28, D4). -/
theorem legal_bounds (c : Config) (h : c.legal = true) :
    1 ≤ c.tol ∧ 2 * c.tol < c.t ∧ (c.upperInclusive = true → 2 * c.tol + 1 < c.t) ∧ 2 ≤ c.w ∧ 1 ≤ c.dw ∧ c.dw ≤ 27 := by
  unfold Config.legal at h
  cases hu : c.upperInclusive <;> simp [hu] at h ⊢ <;> omega

end Sys2Proof.Machine
end

