-- ==== Sys2Proof/Laws/Edge.lean ====
section
/-! SUPPORT. What an EDGE can do, said once (41_controller.md R120): one case for each branch. -/

namespace Sys2Proof.Machine

open Sys2Proof

/-- The branch that commits a bit, by its fields (R128). -/
theorem edgeBit_eq (b : DataBit) (s : State) :
    edgeBit b s = { s with
      last := b, acc := shiftIn s.cfg s.acc b, rem := decRem s.cfg s.rem,
      ready := if decRem s.cfg s.rem = 0 then true else s.ready } := by
  unfold edgeBit State.commit
  by_cases h : decRem s.cfg s.rem = 0 <;> simp [h, State.setReady, State.setLast]

/-- The branches of R120 and the state each leaves. -/
theorem edgeNext_cases (dir : Direction) (d : Nat) (s : State) :
    (s.en = false ∧ edgeNext dir d s = s) ∨
    (s.en = true ∧ s.ready = true ∧ edgeNext dir d s = s.logCause .frameOverrun) ∨
    (s.en = true ∧ s.ready = false ∧ classify s.cfg d = .invalid ∧
      edgeNext dir d s = s.resetToIdle.logCause .timingOutOfRange) ∨
    (s.en = true ∧ s.ready = false ∧ s.sync = false ∧ ∃ p, (classify s.cfg d).pulse = some p ∧
      ((dir = .falling ∧ edgeNext dir d s = s.setSync true) ∨ (dir = .rising ∧ edgeNext dir d s = s))) ∨
    (s.en = true ∧ s.ready = false ∧ s.sync = true ∧ s.err = true ∧ ∃ p, (classify s.cfg d).pulse = some p ∧
      edgeNext dir d s = s.resetToIdle.logCause .framingInconsistency) ∨
    (s.en = true ∧ s.ready = false ∧ s.sync = true ∧ s.err = false ∧ ∃ p, (classify s.cfg d).pulse = some p ∧
      ((resolve s.cfg dir s.last p = .invalid ∧ edgeNext dir d s = s.setErr true) ∨
       (resolve s.cfg dir s.last p = .noBit ∧ edgeNext dir d s = s) ∨
       (∃ b : DataBit, resolve s.cfg dir s.last p = b.toSymbol ∧ edgeNext dir d s = edgeBit b s))) := by
  cases hen : s.en with
  | false => exact .inl ⟨rfl, by simp [edgeNext, hen]⟩
  | true =>
    refine .inr ?_
    cases hr : s.ready with
    | true => exact .inl ⟨rfl, rfl, by simp [edgeNext, hen, hr]⟩
    | false =>
      refine .inr ?_
      cases hp : (classify s.cfg d).pulse with
      | none => exact .inl ⟨rfl, rfl, (pulse_eq_none_iff _).1 hp, by simp [edgeNext, hen, hr, hp]⟩
      | some p =>
        refine .inr ?_
        have he : edgeNext dir d s = edgeValid dir p s := by simp [edgeNext, hen, hr, hp]
        rw [he]
        cases hs : s.sync with
        | false =>
          refine .inl ⟨rfl, rfl, rfl, p, rfl, ?_⟩
          cases dir <;> simp [edgeValid, hs]
        | true =>
          refine .inr ?_
          cases herr : s.err with
          | true => exact .inl ⟨rfl, rfl, rfl, rfl, p, rfl, by simp [edgeValid, hs, herr]⟩
          | false =>
            refine .inr ⟨rfl, rfl, rfl, rfl, p, rfl, ?_⟩
            cases hsym : resolve s.cfg dir s.last p with
            | invalid => exact .inl ⟨rfl, by simp [edgeValid, edgeResolved, hs, herr, hsym]⟩
            | noBit => exact .inr (.inl ⟨rfl, by simp [edgeValid, edgeResolved, hs, herr, hsym]⟩)
            | zero => exact .inr (.inr ⟨.zero, rfl, by simp [edgeValid, edgeResolved, hs, herr, hsym]⟩)
            | one => exact .inr (.inr ⟨.one, rfl, by simp [edgeValid, edgeResolved, hs, herr, hsym]⟩)

/-- EDGE always answers a next state (R160). -/
@[simp] theorem exec_edge (dir : Direction) (d : Nat) (s : State) : exec (.edge dir d) s = .next (edgeNext dir d s) := rfl

end Sys2Proof.Machine
end

