-- ==== Sys2Proof/Laws/PerInstr.lean ====
section
/-! SUPPORT. The family `OpField`, one lemma per event: its word carries its operation code in bits 31:28 and its operands below
(30_encoding.md R70, R71). -/

namespace Sys2Proof.Laws

open Sys2Proof

/-- The word of an event holds its operation code in `op` and its operand bits in bits 27:0. -/
def OpField.Statement (i : Instr) : Prop := opField (encode i) = i.opcode ∧ operandField (encode i) = i.operandBits

/-- Fields of a word put together from an operation code and operand bits. -/
theorem fields_of_append (o : BitVec 4) (x : BitVec 28) : opField (o ++ x) = o ∧ operandField (o ++ x) = x := by
  constructor
  · apply BitVec.eq_of_getLsbD_eq
    intro j hj
    have h : (o ++ x).getLsbD (28 + j) = o.getLsbD j := by rw [BitVec.getLsbD_append]; simp
    simpa [opField, hj] using h
  · apply BitVec.eq_of_getLsbD_eq
    intro j hj
    have h : (o ++ x).getLsbD j = x.getLsbD j := by rw [BitVec.getLsbD_append]; simp [hj]
    simpa [operandField, hj] using h

theorem OpField.edge (dir : Direction) (dur : Nat) : OpField.Statement (.edge dir dur) := fields_of_append _ _

theorem OpField.timeout : OpField.Statement .timeout := fields_of_append _ _

theorem OpField.take : OpField.Statement .take := fields_of_append _ _

theorem OpField.disable : OpField.Statement .disable := fields_of_append _ _

theorem OpField.enable : OpField.Statement .enable := fields_of_append _ _

end Sys2Proof.Laws
end

