-- ==== Sys2Proof/Laws/Step.lean ====
section
/-! SUPPORT. What exec and step can do, said once: events always answer a next state, and a step is one of five deliveries. -/

namespace Sys2Proof.Machine

open Sys2Proof

/-- The state after an event. -/
def execNext (i : Instr) (s : State) : State :=
  match i with
  | .edge dir d => edgeNext dir d s
  | .timeout => if s.en = false then s else s.resetToIdle.logCause .signalTimeout
  | .take => if s.ready then (s.respond (some s.acc)).resetToIdle.logCause .drained else s.respond none
  | .disable => (s.resetToIdle.setEn false).logCause .disabled
  | .enable => (s.resetToIdle.setEn true).logCause .enabled

/-- Every event answers a next state (R160). -/
theorem exec_eq_next (i : Instr) (s : State) : exec i s = .next (execNext i s) := by cases i <;> rfl

/-- No event changes the configuration (R205) or takes a transaction. -/
theorem execNext_frame (i : Instr) (s : State) :
    (execNext i s).cfg = s.cfg ∧ (execNext i s).inputs = s.inputs := by
  cases i with
  | edge dir d =>
    simp only [execNext]
    rcases edgeNext_cases dir d s with ⟨-, h⟩ | ⟨-, -, h⟩ | ⟨-, -, -, h⟩ | ⟨-, -, -, p, -, ⟨-, h⟩ | ⟨-, h⟩⟩ |
      ⟨-, -, -, -, p, -, h⟩ | ⟨-, -, -, -, p, -, ⟨-, h⟩ | ⟨-, h⟩ | ⟨b, -, h⟩⟩ <;> simp [h, edgeBit_eq]
  | timeout => by_cases h : s.en = false <;> simp [execNext, h]
  | take => by_cases h : s.ready = true <;> simp [execNext, h]
  | disable => simp [execNext]
  | enable => simp [execNext]

/-- What a step can do: with an illegal configuration it is refused (R28); else it idles for want of a transaction, idles in
one without an event (R40), resets (R190), refuses a word under reset, runs an event (R75), or refuses an illegal word (R74). -/
theorem step_cases (s : State) :
    (s.cfg.legal = false ∧ step s = .refused .illegalConfiguration) ∨
    (s.cfg.legal = true ∧ s.inputs = [] ∧ step s = .next s) ∨
    (s.cfg.legal = true ∧ ∃ tr rest, s.inputs = tr :: rest ∧
      ((tr.rst = true ∧ tr.evValid = true ∧ step s = .refused .eventDuringReset) ∨
       (tr.rst = true ∧ tr.evValid = false ∧ step s = .next ({ s with inputs := rest } : State).powerOnReset) ∨
       (tr.rst = false ∧ tr.evValid = false ∧ step s = .next { s with inputs := rest }) ∨
       (tr.rst = false ∧ tr.evValid = true ∧ ∃ i, decode s.cfg.dw tr.evWord = .event i ∧
          step s = .next (execNext i { s with inputs := rest })) ∨
       (tr.rst = false ∧ tr.evValid = true ∧ ∃ r, decode s.cfg.dw tr.evWord = .illegal r ∧
          step s = .refused (.illegalWord r)))) := by
  cases hl : s.cfg.legal with
  | false => exact .inl ⟨rfl, by simp [step, deliver, hl]⟩
  | true =>
    refine .inr ?_
    cases hi : s.inputs with
    | nil => exact .inl ⟨rfl, rfl, by simp [step, deliver, hl, hi]⟩
    | cons tr rest =>
      refine .inr ⟨rfl, tr, rest, rfl, ?_⟩
      have hd : deliver s = deliverTransaction tr { s with inputs := rest } := by simp [deliver, hl, hi]
      rw [step, hd, deliverTransaction]
      cases hrst : tr.rst <;> cases hv : tr.evValid <;> simp [deliverWord]
      cases hdec : decode s.cfg.dw tr.evWord with
      | event i => simp [exec_eq_next]
      | illegal r => simp

end Sys2Proof.Machine
end

