-- ==== Sys2Proof/Tests/Slice0.lean ====
section
/-! SUPPORT. The model's own tests: the smoke tests of legality and well-formedness, words written out from 30_encoding.md, one
step of each event from the vectors of 95_test_vectors.md, and for every statement with hypotheses a witness that meets them. -/

namespace Sys2Proof.Tests

open Sys2Proof Sys2Proof.Machine

/-! ### Legality of a configuration and well-formedness of an event, each check refusing an ill-formed term -/

/-- V-G1. -/
theorem test_standard_legal : Config.standard.legal = true ∧ Config.standard.bootCheck = true := by decide

/-- V-G4: `tol >= 1`. -/
theorem test_zero_tolerance_illegal : { Config.standard with tol := 0 }.legal = false := by decide

/-- V-G2: no gap at `2·tol = T`. -/
theorem test_touching_windows_illegal : { Config.standard with tol := 450 }.legal = false := by decide

/-- V-G3: the largest tolerance, for both settings of the upper bound. -/
theorem test_largest_tolerance_legal :
    { Config.standard with tol := 449 }.legal = true ∧
    { Config.standard with tol := 449, upperInclusive := true }.legal = true := by decide

/-- V-G5: `T = 3`, `tol = 1` is legal with exclusive upper bounds only. -/
theorem test_empty_gap_illegal :
    { Config.standard with t := 3, tol := 1 }.legal = true ∧
    { Config.standard with t := 3, tol := 1, upperInclusive := true }.legal = false := by decide

/-- V-G6: `W >= 2`. -/
theorem test_width_one_illegal : { Config.standard with w := 1 }.legal = false := by decide

/-- V-G7: `DW <= 27`; and `DW >= 1` (R28). -/
theorem test_duration_width_illegal :
    { Config.standard with dw := 28 }.legal = false ∧ { Config.standard with dw := 0 }.legal = false := by decide

/-- V-G8, V-G9: the boot condition is not legality. -/
theorem test_boot_condition :
    { Config.standard with dw := 11 }.legal = true ∧ { Config.standard with dw := 11 }.bootCheck = false ∧
    { Config.standard with dw := 12 }.bootCheck = true := by decide

/-- R72: the one check of an operand. -/
theorem test_duration_too_wide_ill_formed :
    (Instr.edge .falling 65536).wellFormed 16 = false ∧ (Instr.edge .falling 65535).wellFormed 16 = true := by decide

/-- R28: no machine runs with an illegal configuration. -/
theorem test_illegal_configuration_refused :
    deliver (State.powerOn { Config.standard with w := 1 }) = .refuse .illegalConfiguration := by decide

/-! ### Decoding: words written out bit by bit from R70 and R71 -/

/-- EDGE, Falling, 1800 = 0b11100001000 (V-W1): op 0001, dir 0, dur. -/
theorem test_decode_edge_falling :
    decode 16 0b0001_0_000000000000000011100001000#32 = .event (.edge .falling 1800) := by decide

/-- EDGE, Rising, 900 = 0b1110000100 (V-W2). -/
theorem test_decode_edge_rising :
    decode 16 0b0001_1_000000000000000001110000100#32 = .event (.edge .rising 900) := by decide

/-- TIMEOUT: op 0010 (V-W8). -/
theorem test_decode_timeout : decode 16 0b0010_0000000000000000000000000000#32 = .event .timeout := by decide

/-- TAKE: op 0011 (V-W11). -/
theorem test_decode_take : decode 16 0b0011_0000000000000000000000000000#32 = .event .take := by decide

/-- DISABLE: op 0100 (V-W13). -/
theorem test_decode_disable : decode 16 0b0100_0000000000000000000000000000#32 = .event .disable := by decide

/-- ENABLE: op 0101 (V-W14). -/
theorem test_decode_enable : decode 16 0b0101_0000000000000000000000000000#32 = .event .enable := by decide

/-- V-W4 to V-W7: the largest durations at two widths. -/
theorem test_decode_duration_widths :
    decode 16 0x1000FFFF#32 = .event (.edge .falling 65535) ∧
    decode 16 0x10010000#32 = .illegal .edgeDurationTooWide ∧
    decode 27 0x10010000#32 = .event (.edge .falling 65536) ∧
    decode 16 0x1FFFFFFF#32 = .illegal .edgeDurationTooWide ∧
    decode 27 0x1FFFFFFF#32 = .event (.edge .rising 134217727) := by decide

/-- V-W9, V-W10, V-W12, V-W15 to V-W18: illegal words. -/
theorem test_decode_illegal :
    decode 16 0x20000001#32 = .illegal .nonZeroOperand ∧ decode 16 0x28000000#32 = .illegal .nonZeroOperand ∧
    decode 16 0x30000001#32 = .illegal .nonZeroOperand ∧ decode 16 0x5000000F#32 = .illegal .nonZeroOperand ∧
    decode 16 0x00000000#32 = .illegal .reservedOp ∧ decode 16 0x60000000#32 = .illegal .reservedOp ∧
    decode 16 0xF0000000#32 = .illegal .reservedOp := by decide

/-- R77: the encoder on the worked encodings. -/
theorem test_encode :
    encode (.edge .falling 1800) = 0x10000708#32 ∧ encode (.edge .rising 900) = 0x18000384#32 ∧
    encode .timeout = 0x20000000#32 ∧ encode .take = 0x30000000#32 ∧ encode .disable = 0x40000000#32 ∧
    encode .enable = 0x50000000#32 := by decide

/-- The opcode table's words through the host's entry. -/
theorem test_table_words :
    decodeTableWord 32 0x18000384 = some (.edge .rising 900) ∧ decodeTableWord 32 0x30000000 = some .take ∧
    decodeTableWord 32 0x60000000 = none := by decide

/-! ### Classifier: V-C1 to V-C15, each side of each bound -/

theorem test_classify_exclusive :
    [0, 629, 630, 1169, 1170, 1171, 1350, 1529, 1530, 2069, 2070, 65535].map (classify Config.standard) =
    [.invalid, .invalid, .short, .short, .invalid, .invalid, .invalid, .invalid, .long, .long, .invalid, .invalid] := by decide

theorem test_classify_inclusive :
    [1169, 1170, 1171, 2069, 2070, 2071].map (classify { Config.standard with upperInclusive := true }) =
    [.short, .short, .invalid, .long, .long, .invalid] := by decide

/-! ### One step of each event. A state is written as 95_test_vectors.md writes it. -/

/-- `(acc, rem, last, err, sync, ready, en)` at a configuration, nothing presented and nothing observed. -/
def st (c : Config) (acc rem : Nat) (last : DataBit) (err sync ready en : Bool) : State :=
  { cfg := c, acc := acc, rem := rem, last := last, err := err, sync := sync, ready := ready, en := en,
    inputs := [], outs := [], log := [] }

/-- The state record and the observations an event leaves. -/
def after (i : Instr) (s : State) : Option (Block × List (Option Nat) × List Cause) :=
  match exec i s with
  | .next t => some (t.block, t.outs, t.log)
  | .fault _ => none
  | .refused _ => none

/-- V-E20: the completing edge sets `ready`. -/
theorem test_edge_completes :
    after (.edge .falling 1800) (st Config.standard 0b101100 1 .zero false true false true) =
    some ({ acc := 0b1011001, rem := 0, last := .one, err := false, sync := true, ready := true, en := true }, [], []) := by
  decide

/-- V-E10: an Invalid duration under the latch is logged as TimingOutOfRange. -/
theorem test_edge_invalid_under_latch :
    after (.edge .falling 5000) (st Config.standard 0 7 .one true true false true) =
    some ({ acc := 0, rem := 7, last := .one, err := false, sync := false, ready := false, en := true }, [],
      [.timingOutOfRange]) := by
  decide

/-- V-T4: TIMEOUT discards an undrained frame. -/
theorem test_timeout_discards_frame :
    after .timeout (st Config.standard 0b1011001 0 .one false true true true) =
    some ({ acc := 0, rem := 7, last := .one, err := false, sync := false, ready := false, en := true }, [],
      [.signalTimeout]) := by
  decide

/-- V-T5: TIMEOUT while disabled. -/
theorem test_timeout_while_disabled :
    after .timeout (st Config.standard 0 7 .one false false false false) =
    some ({ acc := 0, rem := 7, last := .one, err := false, sync := false, ready := false, en := false }, [], []) := by
  decide

/-- V-K1: TAKE drains. -/
theorem test_take_drains :
    after .take (st Config.standard 0b1011001 0 .one false true true true) =
    some ({ acc := 0, rem := 7, last := .one, err := false, sync := false, ready := false, en := true },
      [some 0x59], [.drained]) := by
  decide

/-- V-K4: TAKE keeps the latch. -/
theorem test_take_keeps_latch :
    after .take (st Config.standard 0 7 .one true true false true) =
    some ({ acc := 0, rem := 7, last := .one, err := true, sync := true, ready := false, en := true }, [none], []) := by
  decide

/-- V-D2: DISABLE discards an undrained frame. -/
theorem test_disable :
    after .disable (st Config.standard 0b1011001 0 .one false true true true) =
    some ({ acc := 0, rem := 7, last := .one, err := false, sync := false, ready := false, en := false }, [],
      [.disabled]) := by
  decide

/-- V-N4: ENABLE clears the latch. -/
theorem test_enable :
    after .enable (st Config.standard 0 7 .one true true false true) =
    some ({ acc := 0, rem := 7, last := .one, err := false, sync := false, ready := false, en := true }, [],
      [.enabled]) := by
  decide

/-- V-M7: at `W = 32` the last bit of the largest frame; bit 31 stays 0. -/
theorem test_commit_wide :
    (st { Config.standard with w := 32 } (2 ^ 30 - 1) 1 .one false true false true).commit .one =
    (.complete, st { Config.standard with w := 32 } (2 ^ 31 - 1) 0 .one false true false true) := by
  decide

/-! ### Delivery and the host's entry -/

/-- The state record a step leaves. -/
def stepBlock (s : State) : Option Block :=
  match step s with
  | .next t => some t.block
  | .fault _ => none
  | .refused _ => none

/-- The word of `edge f, 1800`, run as the first event after reset (W10, R124). -/
theorem test_first_event_after_reset :
    stepBlock (State.reset.withFetchWord 32 0x10000708) =
    some { acc := 0, rem := 7, last := .one, err := false, sync := true, ready := false, en := true } := by
  decide

/-- The word of DISABLE, run as the first event after reset (R145). -/
theorem test_disable_after_reset :
    stepBlock (State.reset.withFetchWord 32 0x40000000) =
    some { acc := 0, rem := 7, last := .one, err := false, sync := false, ready := false, en := false } := by
  decide

/-- An illegal word, and an event word while `rst` is asserted, are refused (R74, R190). -/
theorem test_refusals :
    deliver { State.reset with inputs := [presentWord 0x30000001#32] } = .refuse (.illegalWord .nonZeroOperand) ∧
    deliver { State.reset with inputs := [{ rst := true, evValid := true, evWord := 0x30000000#32 }] } =
      .refuse .eventDuringReset := by
  decide

/-- `rst` in mid-frame (R190, R191). -/
theorem test_power_on_reset_in_mid_frame :
    stepBlock { st Config.standard 0b101 4 .one false true false true with inputs := [presentReset] } =
    some { acc := 0, rem := 7, last := .one, err := false, sync := false, ready := false, en := true } := by
  decide

/-! ### The textual form (R79, R80) -/

theorem test_assemble_canonical :
    assembleLine Config.standard "edge f, 1800".toList = .word 0x10000708#32 ∧
    assembleLine Config.standard "  EDGE R , 0x384 ; a comment".toList = .word 0x18000384#32 ∧
    assembleLine Config.standard "take".toList = .word 0x30000000#32 := by
  decide

theorem test_assemble_pseudo :
    assembleLine Config.standard "fall.l".toList = .word 0x10000708#32 ∧
    assembleLine Config.standard "rise 0b1110000100".toList = .word 0x18000384#32 ∧
    assembleLine Config.standard "; nothing".toList = .nothing := by
  decide

theorem test_assemble_refuses :
    assembleLine Config.standard "edge f, 65536".toList = .error .durationTooWide ∧
    assembleLine Config.standard "edge f, 12x".toList = .error .badNumber ∧
    assembleLine Config.standard "jump 5".toList = .error .unknownLine := by
  decide

theorem test_canonical_line : canonicalLine (.edge .rising 1350) = "edge r, 1350".toList := by decide

/-! ### Witnesses: for each statement with hypotheses, a state and operands that meet them all -/

/-- Named start states of 95_test_vectors.md. -/
def s0 : State := st Config.standard 0 7 .one false false false true
def ssync : State := st Config.standard 0 7 .one false true false true
def sacc3 : State := st Config.standard 0b101 4 .one false true false true
def saccZ : State := st Config.standard 0 6 .zero false true false true
def serr : State := st Config.standard 0 7 .one true true false true
def spre : State := st Config.standard 0b101100 1 .zero false true false true
def sready : State := st Config.standard 0b1011001 0 .one false true true true
def sdis : State := st Config.standard 0 7 .one false false false false

/-- `W = 2`, synchronized: one bit to a frame. -/
def ssyncW2 : State := st { Config.standard with w := 2 } 0 1 .one false true false true

/-- The invariants hold in every named state. -/
theorem witness_inv_s0 : s0.Inv := by constructor <;> decide
theorem witness_inv_ssync : ssync.Inv := by constructor <;> decide
theorem witness_inv_sacc3 : sacc3.Inv := by constructor <;> decide
theorem witness_inv_serr : serr.Inv := by constructor <;> decide
theorem witness_inv_spre : spre.Inv := by constructor <;> decide
theorem witness_inv_sready : sready.Inv := by constructor <;> decide
theorem witness_inv_sdis : sdis.Inv := by constructor <;> decide

theorem witness_DecodeOfEncode : 27 ≤ 27 ∧ (Instr.edge .rising (2 ^ 27 - 1)).wellFormed 27 = true := by decide

theorem witness_EncodeOfDecode : decode 1 0x18000001#32 = .event (.edge .rising 1) := by decide

theorem witness_IllegalWordsAreRefused :
    let s := { s0 with inputs := [presentWord 0x10010000#32] }
    s.cfg.legal = true ∧ s.inputs = presentWord 0x10010000#32 :: [] ∧
    decode s.cfg.dw 0x10010000#32 = .illegal .edgeDurationTooWide := by decide

theorem witness_RegisterWidths :
    (2 ≤ ssyncW2.cfg.w ∧ ssyncW2.cfg.w = 2) ∧ { Config.standard with w := 14 }.w = 14 ∧ { Config.standard with w := 32 }.w = 32 := by
  decide

theorem witness_LegalConfigurations :
    Config.standard.legal = true ∧ (st { Config.standard with w := 1 } 0 0 .one false false false true).cfg.legal = false := by
  decide

theorem witness_ClassifyByWindows : Config.standard.t = 900 ∧ Config.standard.tol = 270 := by decide

theorem witness_WindowBounds :
    Config.standard.legal = true ∧ { Config.standard with upperInclusive := true }.legal = true ∧
    1169 ≠ Config.standard.shortMax ∧ 1169 ≠ Config.standard.longMax := by decide

theorem witness_ClassifyCorners :
    Config.standard.legal = true ∧ Config.standard.upperInclusive = false ∧ 629 < Config.standard.shortMin ∧
    (Config.standard.shortMax < 1171 ∧ 1171 < Config.standard.longMin) ∧ Config.standard.longMax < 2071 ∧
    ({ Config.standard with dw := 10 }.legal = true ∧
      2 ^ 10 - 1 < { Config.standard with dw := 10 }.longMin ∧ 1023 < 2 ^ 10) ∧
    ({ Config.standard with dw := 9 }.legal = true ∧
      2 ^ 9 - 1 < { Config.standard with dw := 9 }.shortMin ∧ 511 < 2 ^ 9) := by decide

theorem witness_SaturatedIntervalsAreInvalid :
    Config.standard.legal = true ∧ Config.standard.bootCheck = true ∧ 65535 < 2 ^ Config.standard.dw ∧
    2 ^ Config.standard.dw ≤ 65536 := by decide

theorem witness_LineFormsAssemble :
    ([3, 8, 4] ≠ [] ∧ ∀ v ∈ [3, 8, 4], v < NumberForm.hexadecimal.base) ∧
    ([0, 15, 15] ≠ [] ∧ ∀ v ∈ [0, 15, 15], v < NumberForm.hexadecimal.base) ∧
    ([1, 1, 0] ≠ [] ∧ ∀ v ∈ [1, 1, 0], v < NumberForm.binary.base) ∧
    ([0, 9] ≠ [] ∧ ∀ v ∈ [0, 9], v < NumberForm.decimal.base) ∧
    "edge".toList ∈ mnemonics ∧ "EdGe".toList.map Char.toLower = "edge".toList ∧
    "fall.l".toList ∈ mnemonics ∧ "FALL.L".toList.map Char.toLower = "fall.l".toList := by decide

/-- R79's number forms, written out. -/
theorem test_number_forms :
    NumberForm.hexadecimal.text [3, 8, 4] = "0x384".toList ∧ NumberForm.hexadecimal.value [3, 8, 4] = 900 ∧
    NumberForm.hexadecimal.text [0, 10, 15] = "0x0af".toList ∧ NumberForm.binary.text [1, 0] = "0b10".toList ∧
    NumberForm.binary.value [1, 0] = 2 ∧ NumberForm.decimal.text [0, 9] = "09".toList := by decide

theorem witness_PseudoEvents : { Config.standard with t := 3, tol := 1 }.legal = true := by decide

theorem witness_ResolveResults : Config.standard.fzs = .invalid := by decide

theorem witness_RomsHoldTheTables :
    Config.standard.fzs = .invalid ∧ { Config.standard with fzs := .noBit }.fzs = .noBit := by decide

theorem witness_CommitShiftsAndCounts :
    (2 ≤ spre.cfg.w ∧ 1 ≤ spre.rem ∧ spre.rem ≤ spre.cfg.w - 1) ∧
    (2 ≤ ssync.cfg.w ∧ 1 ≤ ssync.rem ∧ ssync.rem ≤ ssync.cfg.w - 1) ∧
    (sacc3.cfg.w = 8 ∧ sacc3.acc = 0b101 ∧ sacc3.rem = 4) := by decide

theorem witness_FrameCompletesAtLastBit :
    2 ≤ ssyncW2.cfg.w ∧ ssyncW2.acc = 0 ∧ ssyncW2.rem = ssyncW2.cfg.w - 1 ∧ [DataBit.zero] ≠ [] ∧
    [DataBit.zero].length ≤ ssyncW2.cfg.w - 1 := by decide

theorem witness_PowerOnResetByPort :
    let s := { sready with inputs := [presentReset] }
    let s' := { sready with inputs := [{ rst := true, evValid := true, evWord := 0x30000000#32 }] }
    (s.cfg.legal = true ∧ s.inputs = presentReset :: [] ∧ presentReset.rst = true ∧ presentReset.evValid = false) ∧
    (s'.cfg.legal = true ∧ s'.inputs = { rst := true, evValid := true, evWord := 0x30000000#32 } :: []) := by decide

theorem witness_StepRunsTheDecodedEvent :
    let tr := presentEvent (.edge .falling 65535)
    let s := { s0 with inputs := [tr] }
    s.cfg.legal = true ∧ s.inputs = tr :: [] ∧ tr.rst = false ∧ tr.evValid = true ∧
    decode s.cfg.dw tr.evWord = .event (.edge .falling 65535) := by decide

theorem witness_NoEventChangesNothing :
    s0.cfg.legal = true ∧ s0.inputs = [] ∧
    { s0 with inputs := [presentNothing] }.inputs = presentNothing :: [] ∧
    presentNothing.rst = false ∧ presentNothing.evValid = false := by decide

theorem witness_ConfigurationIsStatic : step s0 = .next s0 := by rfl

theorem witness_EdgeWhileDisabled : sdis.en = false := by decide

theorem witness_EdgeWhileFrameReady : sready.ready = true := by decide

theorem witness_EdgeWithInvalidDuration :
    (s0.en = true ∧ s0.ready = false ∧ classify s0.cfg 0 = .invalid ∧ s0.sync = false) ∧
    (serr.en = true ∧ serr.ready = false ∧ classify serr.cfg 1170 = .invalid ∧ serr.sync = true ∧ serr.err = true ∧
      classify serr.cfg 630 ≠ .invalid) := by decide

theorem witness_EdgeBeforeSynchronization :
    s0.en = true ∧ s0.ready = false ∧ classify s0.cfg 630 ≠ .invalid ∧ s0.sync = false ∧
    (s0.acc = 0 ∧ s0.rem = s0.cfg.w - 1 ∧ s0.last = .one ∧ s0.err = false) := by decide

theorem witness_EdgeUnderTheLatch :
    serr.en = true ∧ serr.ready = false ∧ classify serr.cfg 2069 ≠ .invalid ∧ serr.sync = true ∧ serr.err = true := by decide

theorem witness_EdgeLatchesTheError :
    ssync.en = true ∧ ssync.ready = false ∧ (classify ssync.cfg 1800).pulse = some .long ∧ ssync.sync = true ∧
    ssync.err = false ∧ resolve ssync.cfg .falling ssync.last .long = .invalid ∧ Instr.timeout ≠ .take := by decide

theorem witness_EdgeWithoutABit :
    ssync.en = true ∧ ssync.ready = false ∧ (classify ssync.cfg 900).pulse = some .short ∧ ssync.sync = true ∧
    ssync.err = false ∧ resolve ssync.cfg .rising ssync.last .short = .noBit := by decide

/-- At both ends of the count: the first bit of a frame and the last. -/
theorem witness_EdgeCommitsABit :
    (ssync.cfg.legal = true ∧ ssync.en = true ∧ ssync.ready = false ∧ (classify ssync.cfg 1530).pulse = some .long ∧
      ssync.sync = true ∧ ssync.err = false ∧ 1 ≤ ssync.rem ∧ ssync.rem ≤ ssync.cfg.w - 1 ∧
      resolve ssync.cfg .rising ssync.last .long = DataBit.zero.toSymbol) ∧
    (spre.cfg.legal = true ∧ spre.en = true ∧ spre.ready = false ∧ (classify spre.cfg 1800).pulse = some .long ∧
      spre.sync = true ∧ spre.err = false ∧ 1 ≤ spre.rem ∧ spre.rem = 1 ∧
      resolve spre.cfg .falling spre.last .long = DataBit.one.toSymbol) := by decide

/-- With `witness_inv_sacc3`. -/
theorem witness_DirectionDecidesTheBit :
    sacc3.en = true ∧ sacc3.view = .accumulating ∧ classify sacc3.cfg 1800 = .long := by decide

/-- With `witness_inv_sdis` for the last clause. -/
theorem witness_TimeoutResets : sready.en = true ∧ sdis.en = false := by decide

/-- With `witness_inv_sdis` for the last clause. -/
theorem witness_TakeDrainsOrNothing : sready.ready = true ∧ sacc3.ready = false ∧ sdis.en = false := by decide

theorem witness_LoggedCauses :
    exec .timeout s0 = .next { s0 with log := [.signalTimeout] } ∧ Cause.signalTimeout.resets = true ∧
    exec (.edge .rising 0) sready = .next { sready with log := [.frameOverrun] } ∧ Cause.frameOverrun.resets = false :=
  ⟨rfl, rfl, rfl, rfl⟩

theorem witness_IdempotentEvents : sacc3.ready = false ∧ sready.ready = true := by decide

theorem witness_InvariantAtReset : { Config.standard with enableAtReset := false }.legal = true := by decide

theorem witness_InvariantKeptByStep : step ssync = .next ssync := by rfl

theorem witness_ReachableStates : Config.standard.legal = true ∧ ReachedFrom Config.standard (State.powerOn Config.standard) :=
  ⟨by decide, [], rfl⟩

/-- With the invariants of the named states above: each row's state, and an operand of each class and resolution. -/
theorem witness_TransitionSummary :
    (s0.en = true ∧ s0.view = .idle ∧ classify s0.cfg 0 = .invalid ∧ classify s0.cfg 900 ≠ .invalid) ∧
    (ssync.en = true ∧ ssync.view = .accumulating ∧ (classify ssync.cfg 1800).pulse = some .long ∧
      resolve ssync.cfg .falling ssync.last .long = .invalid ∧ (classify ssync.cfg 900).pulse = some .short ∧
      resolve ssync.cfg .rising ssync.last .short = .noBit ∧
      resolve ssync.cfg .falling ssync.last .short = DataBit.one.toSymbol) ∧
    (serr.en = true ∧ serr.view = .error) ∧ (sready.en = true ∧ sready.view = .frameReady) ∧ sdis.en = false := by decide

theorem witness_WhoWritesWhat : exec .disable sready = .next (((sready.resetToIdle).setEn false).logCause .disabled) := rfl

theorem witness_LegalRunsNeverStop :
    let s := { s0 with inputs := [presentEvent .take, presentReset, presentNothing] }
    s.cfg.legal = true ∧ ∀ tr ∈ s.inputs, hostLegal s.cfg tr = true := by decide

theorem witness_WordRunsAreEventRuns :
    let s := { s0 with inputs := [presentEvent (.edge .falling 900), presentEvent .take, presentReset] }
    s.cfg.legal = true ∧ (∀ i ∈ [Instr.edge .falling 900, .take], i.wellFormed s.cfg.dw = true) ∧
    s.inputs = [Instr.edge .falling 900, .take].map presentEvent ++ [presentReset] := by decide

/-- With `witness_inv_sready`: a state whose observation holds a frame. -/
theorem witness_DrainedFramesAreShort :
    step { sready with outs := [some 127] } = .next { sready with outs := [some 127] } ∧
    127 < 2 ^ (sready.cfg.w - 1) := ⟨rfl, by decide⟩

/-- A run of no bits, of the bits before the last, and the edge that completes the frame. -/
theorem witness_EdgeRunsFollowTheTables :
    (ssync.cfg.legal = true ∧ ssync.justSynced) ∧ (ssyncW2.cfg.legal = true ∧ ssyncW2.justSynced) ∧
    readEdges ssync.cfg .one [(.rising, 900), (.falling, 900), (.rising, 1800)] = some [.one, .zero] ∧
    [DataBit.one, .zero].length < ssync.cfg.w - 1 ∧
    readEdges ssyncW2.cfg .one [(.rising, 900)] = some [] ∧ ([] : List DataBit).length = ssyncW2.cfg.w - 2 ∧
    readEdges ssyncW2.cfg .one ([(.rising, 900)] ++ [(.falling, 900)]) = some ([] ++ [.one]) := by
  refine ⟨⟨by decide, ?_⟩, ⟨by decide, ?_⟩, by decide⟩ <;> (unfold State.justSynced; decide)

/-- With `witness_EdgeRunsFollowTheTables` for a run short of the frame; a run that completes one at `W = 3`, with an edge after
it, and both ends of the bit numbers. -/
theorem witness_FirstCommittedBitIsHighest :
    let s := st { Config.standard with w := 3 } 0 2 .one false true false true
    s.cfg.legal = true ∧ s.justSynced ∧
    readEdges s.cfg .one [(.falling, 900), (.rising, 900)] = some [.one] ∧ [DataBit.one].length ≤ s.cfg.w - 1 ∧
    readEdges s.cfg .one [(.rising, 1800), (.falling, 1800), (.rising, 900)] = some [.zero, .one] ∧
    [DataBit.zero, .one].length = s.cfg.w - 1 ∧
    1 ≤ 1 ∧ [DataBit.zero, .one][1 - 1]? = some .zero ∧ [DataBit.zero, .one][2 - 1]? = some .one ∧
    [DataBit.zero, .one].head? = some .zero ∧ [DataBit.zero, .one].getLast? = some .one := by
  refine ⟨by decide, ?_, by decide⟩
  unfold State.justSynced
  decide

/-- The frame of that run, drained: the first committed bit at bit `W - 2 = 1`. -/
theorem test_completed_frame_bits :
    (match execAll (edgeEvents [(.falling, 900), (.rising, 1800)] ++ [.take])
        (st { Config.standard with w := 3 } 0 2 .one false true false true) with
      | .next t => t.outs
      | .fault _ => []
      | .refused _ => []) = [some 0b010] := by decide

theorem witness_EveryFrameIsReceivable :
    ssyncW2.cfg.legal = true ∧ ssyncW2.cfg.enableAtReset = true ∧ [DataBit.zero].length = ssyncW2.cfg.w - 1 ∧
    ssyncW2.cfg.bootCheck = true := by decide

theorem witness_AlternatingEdgesNoDoubleZero :
    Config.standard.fzs = .invalid ∧
    ([(Direction.rising, 1800), (.falling, 1800), (.rising, 1800)].map Prod.fst).IsChain (fun a b => a ≠ b) ∧
    readEdges Config.standard .one [(.rising, 1800), (.falling, 1800), (.rising, 1800)] = some [.zero, .one, .zero] := by
  refine ⟨by decide, by simp, by decide⟩

theorem witness_LatchCostsOneEdge :
    saccZ.en = true ∧ saccZ.ready = false ∧ saccZ.sync = true ∧ saccZ.err = false ∧
    (classify saccZ.cfg 900).pulse = some .short ∧ resolve saccZ.cfg .falling saccZ.last .short = .invalid ∧
    classify saccZ.cfg 900 ≠ .invalid ∧ classify saccZ.cfg 1800 ≠ .invalid := by decide

theorem witness_ResynchronizesOnFallingEdge :
    s0.emptyForm ∧ s0.en = true ∧
    (∀ e ∈ [(Direction.rising, 900), (.falling, 1350)], e.1 = .rising ∨ classify s0.cfg e.2 = .invalid) ∧
    classify s0.cfg 1800 ≠ .invalid := by
  refine ⟨?_, by decide, by decide, by decide⟩
  unfold State.emptyForm
  decide

theorem witness_DisabledIgnoresCallbacks :
    sdis.en = false ∧ ∀ i ∈ [Instr.edge .falling 1800, .timeout], isCallback i = true := by decide

theorem witness_ReadyFrameOutlivesEdges : sready.en = true ∧ sready.ready = true := by decide

theorem witness_FrameLostBeforeDrain :
    sready.ready = true ∧ sready.en = true ∧
    EnvAllows { tickHz := 1, timeoutWindow := 3600, timeoutWhileReady := false } sready [.edge .falling 0] ∧
    ∀ i ∈ [Instr.edge .falling 0], isCallback i = true :=
  ⟨rfl, rfl, ⟨rfl, fun _ _ => trivial⟩, by decide⟩

theorem witness_SimultaneousTakeAndTimeout :
    sready.ready = true ∧ sready.en = true ∧ Serialises [[.take, .timeout]] [.timeout, .take] :=
  ⟨rfl, rfl, [.timeout, .take], [], List.Perm.swap _ _ _, rfl, rfl⟩

theorem witness_LastIsUnreadUnderTheLatch :
    serr.err = true ∧ execAll [.take] serr = .next (serr.respond none) ∧ (serr.respond none).err = true ∧
    execAll [.take, .enable] serr =
      .next ((((serr.respond none).resetToIdle).setEn true).logCause .enabled) := ⟨rfl, rfl, rfl, rfl⟩

theorem witness_ResetLeavesNoTrace :
    sacc3.cfg = sready.cfg ∧ sacc3.en = sready.en ∧ sacc3.inputs = sready.inputs ∧ sacc3.outs = sready.outs ∧
    sacc3.log = sready.log ∧ sready.en = true := by decide

theorem witness_AccumulatorSteersNothing :
    execAll [.take] sready = .next (((sready.respond (some 0b1011001)).resetToIdle).logCause .drained) := rfl

end Sys2Proof.Tests
end

/-! PROOFS for the family of 00_scope.md: the widths of the registers (R13) and what becomes of a ready frame before its drain
(R12, R200). -/

namespace Sys2Proof.Machine

open Sys2Proof

/-! ### Register widths -/

/-- The floor logarithm of `W - 1` gives the ceiling logarithm of `W`: a power of two is at least `W` exactly when it is above
`W - 1` (R13). -/
theorem rw_eq_clog (c : Config) (hw : 2 ≤ c.w) : c.rw = Nat.clog 2 c.w := by
  have hlt : c.w - 1 < 2 ^ c.rw := lt_two_pow_rw c _ le_rfl
  have hle : 2 ^ Nat.log2 (c.w - 1) ≤ c.w - 1 := Nat.log2_self_le (by omega)
  apply le_antisymm
  · exact (Nat.lt_clog_iff_pow_lt one_lt_two).2 (by omega)
  · exact Nat.clog_le_of_le_pow (by omega)

/-- The bit counter of a state within the invariants, whatever its phase: full, counting or run down (R22, R35). -/
theorem State.Inv.rem_le {s : State} (hinv : s.Inv) : s.rem ≤ s.cfg.w - 1 := by
  cases hs : s.sync with
  | false =>
    obtain ⟨-, hrem, -⟩ := hinv.unsynced hs
    exact hrem.le
  | true =>
    cases hr : s.ready with
    | false => exact (hinv.partial_frame hs hr).2
    | true =>
      obtain ⟨-, -, hrem⟩ := hinv.frame_ready hr
      omega

/-- The bits committed so far are at most `W - 1`, so the accumulator holds them (R21, R35 I5). -/
theorem State.Inv.acc_lt {s : State} (hinv : s.Inv) : s.acc < 2 ^ s.cfg.w :=
  hinv.acc_bound.trans_le (Nat.pow_le_pow_right two_pos (by omega))

/-- Settles O6: the formula by the bounds on the floor logarithm, the examples from it, the registers from the invariants. -/
theorem registerWidths : Obligations.RegisterWidths := by
  refine ⟨rw_eq_clog, fun c => ⟨fun h => ?_, fun h => ?_, fun h => ?_⟩, fun s hinv => ?_⟩
  · norm_num [rw_eq_clog c (by omega), h]
  · norm_num [rw_eq_clog c (by omega), h]
  · norm_num [rw_eq_clog c (by omega), h]
  · exact ⟨hinv.rem_le, lt_two_pow_rw _ _ hinv.rem_le, hinv.acc_lt⟩

/-! ### Runs of events and the state record -/

@[simp] theorem execAll_nil (s : State) : execAll [] s = .next s := rfl

/-- A run goes on from the state its first event leaves (R180). -/
@[simp] theorem execAll_cons (i : Instr) (is : List Instr) (s : State) :
    execAll (i :: is) s = execAll is (execNext i s) := by
  rw [execAll, exec_eq_next]

@[simp] theorem State.logCause_block (s : State) (c : Cause) : (s.logCause c).block = s.block := rfl

/-! ### What loses a frame -/

/-- A recovering event, one of those that reset whatever the block holds: TIMEOUT while enabled (R130), DISABLE (R145) and
ENABLE (R150). No response is given. -/
theorem execNext_emptyForm (s : State) (i : Instr) (hi : (i = .timeout ∧ s.en = true) ∨ i = .disable ∨ i = .enable) :
    (execNext i s).emptyForm ∧ (execNext i s).outs = s.outs := by
  rcases hi with ⟨rfl, hen⟩ | rfl | rfl
  · simp [execNext, State.emptyForm, hen]
  · simp [execNext, State.emptyForm]
  · simp [execNext, State.emptyForm]

/-- A TAKE that finds no frame answers None and changes nothing else (R141). -/
theorem execNext_take_of_not_ready (s : State) (hr : s.ready = false) : execNext .take s = s.respond none := by
  simp [execNext, hr]

/-! ### What keeps a frame -/

/-- An EDGE leaves a ready frame alone, enabled or not: of the branches of R120 only the two that write no field of the block
are open (R121, R122). -/
theorem edgeNext_block_of_ready (dir : Direction) (d : Nat) (s : State) (hr : s.ready = true) :
    (edgeNext dir d s).block = s.block := by
  cases hen : s.en with
  | false => simp [edgeNext, hen]
  | true => simp [edgeNext, hen, hr]

/-- Where the environment sends no TIMEOUT while a frame waits (R12), a callback it sends keeps the waiting frame. -/
theorem execNext_callback_block (e : EnvParams) (s : State) (i : Instr) (he : e.timeoutWhileReady = false)
    (hr : s.ready = true) (hi : isCallback i = true) (hsend : envSends e s i = true) :
    (execNext i s).block = s.block := by
  cases i with
  | edge dir d => exact edgeNext_block_of_ready dir d s hr
  | timeout => simp [envSends, hr, he] at hsend
  | take => simp [isCallback] at hi
  | disable => simp [isCallback] at hi
  | enable => simp [isCallback] at hi

/-- A run of callbacks from such an environment keeps the waiting frame: each leaves the state record as it was, so the frame
still waits when the next one arrives. -/
theorem execAll_callbacks_block (e : EnvParams) (he : e.timeoutWhileReady = false) (is : List Instr) (s : State)
    (hr : s.ready = true) (hcb : ∀ i ∈ is, isCallback i = true) (henv : EnvAllows e s is) :
    ∃ t, execAll is s = .next t ∧ t.block = s.block := by
  induction is generalizing s with
  | nil => exact ⟨s, rfl, rfl⟩
  | cons i is ih =>
    obtain ⟨hsend, hrest⟩ := henv
    obtain ⟨hcbi, hcbs⟩ := List.forall_mem_cons.1 hcb
    have hblock := execNext_callback_block e s i he hr hcbi hsend
    have hready : (execNext i s).ready = true := (congrArg Block.ready hblock).trans hr
    obtain ⟨t, hrun, ht⟩ := ih (execNext i s) hready hcbs (hrest _ (exec_eq_next i s))
    exact ⟨t, by rw [execAll_cons, hrun], ht.trans hblock⟩

/-- Settles O55: the event before the TAKE leaves the empty form, in which the TAKE finds no frame; the second part is the
induction over the run of callbacks. -/
theorem frameLostBeforeDrain : Obligations.FrameLostBeforeDrain := by
  refine ⟨fun s i _ hi => ?_, fun e s is he hr hcb henv => execAll_callbacks_block e he is s hr hcb henv⟩
  obtain ⟨hempty, houts⟩ := execNext_emptyForm s i hi
  have hready : (execNext i s).ready = false := by
    obtain ⟨-, -, -, -, -, hready⟩ := hempty
    exact hready
  refine ⟨(execNext i s).respond none, ?_, ?_, hempty⟩
  · rw [execAll_cons, execAll_cons, execNext_take_of_not_ready _ hready, execAll_nil]
  · rw [State.respond_outs, houts]

end Sys2Proof.Machine

/-! PROOFS for the family of 10_state.md: legality (R28), reset values (R42), the invariants and what keeps them (R35), who
writes what (R37, R38), what is never read (R44, R141), and that every frame can be received. -/

namespace Sys2Proof.Machine

open Sys2Proof

/-! ### Legal configurations -/

/-- Legality in the rule's inequalities (R28, D4). -/
theorem legal_iff (c : Config) : c.legal = true ↔
    1 ≤ c.tol ∧ (c.upperInclusive = false → 2 * c.tol < c.t) ∧ (c.upperInclusive = true → 2 * c.tol + 1 < c.t) ∧
    2 ≤ c.w ∧ 1 ≤ c.dw ∧ c.dw ≤ 27 := by
  unfold Config.legal
  cases c.upperInclusive <;> simp [and_assoc]

/-- CLASSIFY answers Invalid exactly outside both windows (R90). -/
theorem classify_eq_invalid_iff (c : Config) (d : Nat) : classify c d = .invalid ↔
    inWindow c c.shortMin c.shortMax d = false ∧ inWindow c c.longMin c.longMax d = false := by
  rcases classify_cases c d with ⟨hs, h⟩ | ⟨hs, hl, h⟩ | ⟨hs, hl, h⟩
  · simp [hs, h]
  · simp [hs, hl, h]
  · simp [hs, hl, h]

/-- From the short window's upper bound to below the long window a duration is Invalid, but for the bound itself where it is
inclusive (R92, R93). -/
theorem classify_gap_iff (c : Config) (d : Nat) (hlo : c.shortMax ≤ d) (hhi : d < c.longMin) (hne : c.shortMin < c.shortMax) :
    classify c d = .invalid ↔ (c.upperInclusive = true → c.shortMax < d) := by
  rw [classify_eq_invalid_iff, ← Bool.not_eq_true, ← Bool.not_eq_true, inWindow_iff, inWindow_iff]
  cases c.upperInclusive
  · simp
    omega
  · simp
    omega

/-- The source's ordering of the window bounds, with a gap that holds an Invalid duration, says what the inequalities say:
without `UPPER_INCLUSIVE` the gap begins at the upper bound itself, with it one tick later. -/
theorem legal_iff_windows (c : Config) : c.legal = true ↔
    (c.shortMin < c.shortMax ∧ c.shortMax < c.longMin ∧ c.longMin < c.longMax ∧
      ∃ d, c.shortMax ≤ d ∧ d < c.longMin ∧ classify c d = .invalid) ∧
    2 ≤ c.w ∧ 1 ≤ c.dw ∧ c.dw ≤ 27 := by
  rw [legal_iff]
  constructor
  · rintro ⟨htol, hexcl, hincl, hrest⟩
    have hgap : c.shortMin < c.shortMax ∧ c.shortMax < c.longMin ∧ c.longMin < c.longMax ∧
        (c.upperInclusive = true → c.shortMax + 1 < c.longMin) := by
      unfold Config.shortMin Config.shortMax Config.longMin Config.longMax
      cases hu : c.upperInclusive <;> simp [hu] at hexcl hincl ⊢ <;> omega
    obtain ⟨hshort, hmid, hlong, hroom⟩ := hgap
    refine ⟨⟨hshort, hmid, hlong, ?_⟩, hrest⟩
    cases hu : c.upperInclusive with
    | false => exact ⟨c.shortMax, le_rfl, hmid, (classify_gap_iff c _ le_rfl hmid hshort).2 (by simp [hu])⟩
    | true =>
      have hlt := hroom hu
      exact ⟨c.shortMax + 1, by omega, hlt, (classify_gap_iff c _ (by omega) hlt hshort).2 (by simp)⟩
  · rintro ⟨⟨hshort, hmid, hlong, d, hlo, hhi, hinv⟩, hrest⟩
    have hroom := (classify_gap_iff c d hlo hhi hshort).1 hinv
    unfold Config.shortMax Config.longMin Config.longMax at *
    exact ⟨by omega, fun _ => by omega, fun hu => by have := hroom hu; omega, hrest⟩

/-- The windows of a legal configuration are disjoint (R28). -/
theorem windows_disjoint (c : Config) (d : Nat) (hl : c.legal = true) :
    ¬ (inWindow c c.shortMin c.shortMax d = true ∧ inWindow c c.longMin c.longMax d = true) := by
  obtain ⟨⟨-, hmid, -⟩, -⟩ := (legal_iff_windows c).1 hl
  rw [inWindow_iff, inWindow_iff]
  omega

/-- There is no machine for an illegal configuration (R28). -/
theorem step_of_illegal (s : State) (hl : s.cfg.legal = false) : step s = .refused .illegalConfiguration := by
  simp [step, deliver, hl]

/-- Settles O7: the two readings of legality from their lemmas, the windows from the ordering. -/
theorem legalConfigurations : Obligations.LegalConfigurations :=
  ⟨legal_iff_windows, legal_iff, windows_disjoint, step_of_illegal, by decide⟩

/-! ### Reset values and transactions without an event -/

/-- Settles O17: both reset states are records written out, so each field and the view are read off. -/
theorem resetValues : Obligations.ResetValues :=
  ⟨fun _ => ⟨rfl, rfl⟩, fun _ => ⟨rfl, rfl⟩⟩

/-- With nothing presented, delivery is quiet (log 6). -/
theorem deliver_of_no_inputs {s : State} (hl : s.cfg.legal = true) (hi : s.inputs = []) : deliver s = .quiet s := by
  simp [deliver, hl, hi]

/-- Delivery takes the first transaction off the list (R40, log 5). -/
theorem deliver_of_cons {s : State} {tr : Transaction} {rest : List Transaction} (hl : s.cfg.legal = true)
    (hi : s.inputs = tr :: rest) : deliver s = deliverTransaction tr { s with inputs := rest } := by
  simp [deliver, hl, hi]

/-- A transaction with `rst` and `ev_valid` low delivers nothing (R40, log 6). -/
theorem deliverTransaction_of_no_event {tr : Transaction} {s : State} (hrst : tr.rst = false) (hv : tr.evValid = false) :
    deliverTransaction tr s = .quiet s := by
  simp [deliverTransaction, hrst, hv]

/-- Settles O20: in both cases what the ports deliver is quiet, so no event runs. -/
theorem noEventChangesNothing : Obligations.NoEventChangesNothing := by
  refine fun s hl => ⟨fun hi => ?_, fun tr rest hi hrst hv => ?_⟩
  · rw [step, deliver_of_no_inputs hl hi]
  · rw [step, deliver_of_cons hl hi, deliverTransaction_of_no_event hrst hv]

/-! ### EDGE, one equation per branch of R120 -/

section EdgeBranches

variable {s : State} {dir : Direction} {d : Nat} {p : Pulse}

theorem edgeNext_of_disabled (hen : s.en = false) : edgeNext dir d s = s := by
  simp [edgeNext, hen]

theorem edgeNext_of_ready (hen : s.en = true) (hr : s.ready = true) :
    edgeNext dir d s = s.logCause .frameOverrun := by
  simp [edgeNext, hen, hr]

theorem edgeNext_of_invalid (hen : s.en = true) (hr : s.ready = false) (hd : classify s.cfg d = .invalid) :
    edgeNext dir d s = s.resetToIdle.logCause .timingOutOfRange := by
  simp [edgeNext, hen, hr, hd, PulseClass.pulse]

theorem edgeNext_of_valid (hen : s.en = true) (hr : s.ready = false) (hp : (classify s.cfg d).pulse = some p) :
    edgeNext dir d s = edgeValid dir p s := by
  simp [edgeNext, hen, hr, hp]

theorem edgeValid_falling_of_unsynced (hs : s.sync = false) : edgeValid .falling p s = s.setSync true := by
  simp [edgeValid, hs]

theorem edgeValid_rising_of_unsynced (hs : s.sync = false) : edgeValid .rising p s = s := by
  simp [edgeValid, hs]

theorem edgeValid_of_latched (hs : s.sync = true) (herr : s.err = true) :
    edgeValid dir p s = s.resetToIdle.logCause .framingInconsistency := by
  simp [edgeValid, hs, herr]

theorem edgeValid_of_synced (hs : s.sync = true) (herr : s.err = false) :
    edgeValid dir p s = edgeResolved (resolve s.cfg dir s.last p) s := by
  simp [edgeValid, hs, herr]

/-- A resolution to a data bit commits it (R128). -/
theorem edgeResolved_toSymbol (b : DataBit) : edgeResolved b.toSymbol s = edgeBit b s := by
  cases b <;> rfl

end EdgeBranches

/-! ### What an event does to the state record -/

/-- An EDGE writes neither `en` nor the responses (R29, R78). -/
theorem edgeNext_en_outs (dir : Direction) (d : Nat) (s : State) :
    (edgeNext dir d s).en = s.en ∧ (edgeNext dir d s).outs = s.outs := by
  rcases edgeNext_cases dir d s with ⟨-, h⟩ | ⟨-, -, h⟩ | ⟨-, -, -, h⟩ | ⟨-, -, -, p, -, ⟨-, h⟩ | ⟨-, h⟩⟩ |
    ⟨-, -, -, -, p, -, h⟩ | ⟨-, -, -, -, p, -, ⟨-, h⟩ | ⟨-, h⟩ | ⟨b, -, h⟩⟩ <;> simp [h, edgeBit_eq]

/-- Only a TAKE responds (R78). -/
theorem execNext_outs (i : Instr) (s : State) (hi : i ≠ .take) : (execNext i s).outs = s.outs := by
  cases i with
  | edge dir d => exact (edgeNext_en_outs dir d s).2
  | timeout => by_cases h : s.en = false <;> simp [execNext, h]
  | take => exact absurd rfl hi
  | disable => rfl
  | enable => rfl

/-- Only DISABLE and ENABLE write `en` (R29). -/
theorem execNext_en (i : Instr) (s : State) : (execNext i s).en = s.en ∨
    i = .disable ∧ (execNext i s).en = false ∨ i = .enable ∧ (execNext i s).en = true := by
  cases i with
  | edge dir d => exact .inl (edgeNext_en_outs dir d s).1
  | timeout => by_cases h : s.en = false <;> simp [execNext, h]
  | take => by_cases h : s.ready = true <;> simp [execNext, h]
  | disable => exact .inr (.inl ⟨rfl, rfl⟩)
  | enable => exact .inr (.inr ⟨rfl, rfl⟩)

/-- What RESET_TO_IDLE leaves is the empty form, whatever is logged with it (R102). -/
theorem resetToIdle_logCause_emptyForm (s : State) (c : Cause) : (s.resetToIdle.logCause c).emptyForm := by
  simp [State.emptyForm]

/-- What an event can do to the state record, whatever the state: keep it, reset it to the empty form, or, as an EDGE on a
frame in progress, set `sync`, set `err` or commit a bit. -/
theorem execNext_cases (i : Instr) (s : State) :
    (execNext i s).block = s.block ∨ (execNext i s).emptyForm ∨
    (s.en = true ∧ s.ready = false ∧ s.sync = false ∧ execNext i s = s.setSync true ∧
      ∃ d, i = .edge .falling d ∧ classify s.cfg d ≠ .invalid) ∨
    (s.ready = false ∧ s.sync = true ∧ s.err = false ∧ (∃ dir d, i = .edge dir d) ∧
      (execNext i s = s.setErr true ∨ ∃ b, execNext i s = edgeBit b s)) := by
  cases i with
  | edge dir d =>
    simp only [execNext]
    rcases edgeNext_cases dir d s with ⟨-, h⟩ | ⟨-, -, h⟩ | ⟨-, -, -, h⟩ | ⟨hen, hr, hs, p, hp, ⟨rfl, h⟩ | ⟨-, h⟩⟩ |
      ⟨-, -, -, -, p, -, h⟩ | ⟨-, hr, hs, herr, p, -, ⟨-, h⟩ | ⟨-, h⟩ | ⟨b, -, h⟩⟩
    · exact .inl (congrArg State.block h)
    · exact .inl (by rw [h, State.logCause_block])
    · exact .inr (.inl (h ▸ resetToIdle_logCause_emptyForm s _))
    · refine .inr (.inr (.inl ⟨hen, hr, hs, h, d, rfl, fun hinv => ?_⟩))
      rw [(pulse_eq_none_iff _).2 hinv] at hp
      cases hp
    · exact .inl (congrArg State.block h)
    · exact .inr (.inl (h ▸ resetToIdle_logCause_emptyForm s _))
    · exact .inr (.inr (.inr ⟨hr, hs, herr, ⟨dir, d, rfl⟩, .inl h⟩))
    · exact .inl (congrArg State.block h)
    · exact .inr (.inr (.inr ⟨hr, hs, herr, ⟨dir, d, rfl⟩, .inr ⟨b, h⟩⟩))
  | timeout =>
    cases hen : s.en with
    | false => exact .inl (by simp [execNext, hen])
    | true => exact .inr (.inl (execNext_emptyForm s _ (.inl ⟨rfl, hen⟩)).1)
  | take =>
    cases hr : s.ready with
    | false => exact .inl (by rw [execNext_take_of_not_ready s hr]; rfl)
    | true => exact .inr (.inl (by simp [execNext, hr, State.emptyForm]))
  | disable => exact .inr (.inl (execNext_emptyForm s _ (.inr (.inl rfl))).1)
  | enable => exact .inr (.inl (execNext_emptyForm s _ (.inr (.inr rfl))).1)

/-- Two states with the same record have the same fields of it. -/
theorem block_eq_iff (s t : State) : t.block = s.block ↔ t.acc = s.acc ∧ t.rem = s.rem ∧ t.last = s.last ∧
    t.err = s.err ∧ t.sync = s.sync ∧ t.ready = s.ready ∧ t.en = s.en := by
  simp [State.block]

/-- Settles O43: the cases of an event's effect on the state record, each of which writes only what it names. -/
theorem whoWritesWhat : Obligations.WhoWritesWhat := by
  intro i s t hexec
  obtain rfl : execNext i s = t := by rw [exec_eq_next] at hexec; exact Host.Outcome.next.inj hexec
  obtain ⟨hcfg, hinputs⟩ := execNext_frame i s
  have houts : (execNext i s).outs ≠ s.outs → i = .take := not_imp_comm.1 (execNext_outs i s)
  have hen : (execNext i s).en ≠ s.en →
      i = .disable ∧ (execNext i s).en = false ∨ i = .enable ∧ (execNext i s).en = true :=
    (execNext_en i s).resolve_left
  have hready : s.ready = true → (execNext i s).ready = false → ∀ dir d, i ≠ .edge dir d := by
    rintro hr hr' dir d rfl
    have hkept : (execNext (.edge dir d) s).ready = s.ready :=
      congrArg Block.ready (edgeNext_block_of_ready dir d s hr)
    simp [hkept, hr] at hr'
  refine ⟨hcfg, hinputs, houts, hen, ?_⟩
  rcases execNext_cases i s with h | h | ⟨-, -, -, h, hi⟩ | ⟨hr, hs, herr, hi, h | ⟨b, h⟩⟩
  · obtain ⟨hacc, hrem, hlast, herr, hsync, hready', -⟩ := (block_eq_iff _ _).1 h
    simp_all
  · obtain ⟨-, -, -, herr, hsync, hready'⟩ := id h
    simp_all
  · simp_all
  · simp_all
  · simp_all [edgeBit_eq]

/-! ### The invariants of R35 -/

/-- The empty form with a legal configuration satisfies the invariants: no clause but I1 applies to it. -/
theorem inv_of_emptyForm {s : State} (hl : s.cfg.legal = true) (h : s.emptyForm) : s.Inv := by
  obtain ⟨hacc, hrem, hlast, herr, hsync, hready⟩ := h
  constructor <;> simp_all

/-- The invariants speak of the configuration and the state record alone. -/
theorem inv_of_block_eq {s t : State} (hc : t.cfg = s.cfg) (hb : t.block = s.block) (h : s.Inv) : t.Inv := by
  obtain ⟨hacc, hrem, hlast, herr, hsync, hready, hen⟩ := (block_eq_iff s t).1 hb
  constructor
  · simpa [hc] using h.cfg_legal
  · simpa [hc, hacc, hrem, hlast, herr, hsync, hready] using h.unsynced
  · simpa [hrem, herr, hsync, hready] using h.frame_ready
  · simpa [hrem, herr, hsync, hready] using h.latched
  · simpa [hc, hrem, hsync, hready] using h.partial_frame
  · simpa [hc, hacc, hrem] using h.acc_bound
  · simpa [hsync, hen] using h.disabled

/-- The synchronizing edge (R124): a full count of slots stands before the first bit. -/
theorem inv_setSync {s : State} (h : s.Inv) (hen : s.en = true) (hs : s.sync = false) : (s.setSync true).Inv := by
  obtain ⟨hacc, hrem, hlast, herr, hready⟩ := h.unsynced hs
  obtain ⟨-, -, -, hw, -⟩ := legal_bounds s.cfg h.cfg_legal
  constructor <;> simp_all [h.cfg_legal]
  omega

/-- The latch is set on a frame in progress (R126), which has a slot left. -/
theorem inv_setErr {s : State} (h : s.Inv) (hs : s.sync = true) (hr : s.ready = false) : (s.setErr true).Inv := by
  obtain ⟨hpos, hle⟩ := h.partial_frame hs hr
  have hacc := h.acc_bound
  have hdis := h.disabled
  constructor <;> simp_all [h.cfg_legal]

/-- The count and the accumulator after a commit within the invariants: no wrap of the counter (R99), and the bound of I5 for
one bit more. -/
theorem commit_bounds {s : State} (h : s.Inv) (hpos : 1 ≤ s.rem) (b : DataBit) :
    decRem s.cfg s.rem = s.rem - 1 ∧ shiftIn s.cfg s.acc b = 2 * s.acc + b.val ∧
    2 * s.acc + b.val < 2 ^ (s.cfg.w - 1 - (s.rem - 1)) := by
  have hle := h.rem_le
  have hdec := decRem_eq s.cfg s.rem hpos (lt_two_pow_rw _ _ hle)
  have hbound : 2 * s.acc + b.val < 2 ^ (s.cfg.w - 1 - (s.rem - 1)) := by
    have hexp : s.cfg.w - 1 - (s.rem - 1) = s.cfg.w - 1 - s.rem + 1 := by omega
    rw [hexp, pow_succ]
    have := h.acc_bound
    have := val_lt_two b
    omega
  have hwidth : 2 ^ (s.cfg.w - 1 - (s.rem - 1)) ≤ 2 ^ s.cfg.w := Nat.pow_le_pow_right two_pos (by omega)
  exact ⟨hdec, by rw [shiftIn_eq, Nat.mod_eq_of_lt (hbound.trans_le hwidth)], hbound⟩

/-- A committed bit of a frame in progress (R128), by what it writes: no wrap happens. -/
theorem edgeBit_of_inv {s : State} (h : s.Inv) (hpos : 1 ≤ s.rem) (b : DataBit) :
    edgeBit b s = { s with
      last := b, acc := 2 * s.acc + b.val, rem := s.rem - 1, ready := if s.rem = 1 then true else s.ready } := by
  obtain ⟨hdec, hshift, -⟩ := commit_bounds h hpos b
  have hlast : s.rem - 1 = 0 ↔ s.rem = 1 := by omega
  rw [edgeBit_eq, hdec, hshift]
  simp only [hlast]

/-- A committed bit (R128): the frame is ready exactly when its last slot is filled. -/
theorem inv_edgeBit {s : State} (h : s.Inv) (hs : s.sync = true) (hr : s.ready = false) (herr : s.err = false)
    (b : DataBit) : (edgeBit b s).Inv := by
  obtain ⟨hpos, hle⟩ := h.partial_frame hs hr
  obtain ⟨-, -, hacc⟩ := commit_bounds h hpos b
  have hdis := h.disabled
  rw [edgeBit_of_inv h hpos b]
  constructor <;> simp_all [h.cfg_legal]
  omega

/-- Every event keeps the invariants (R35). -/
theorem inv_execNext {s : State} (i : Instr) (h : s.Inv) : (execNext i s).Inv := by
  obtain ⟨hcfg, -⟩ := execNext_frame i s
  rcases execNext_cases i s with hb | hempty | ⟨hen, -, hs, he, -⟩ | ⟨hr, hs, herr, -, he | ⟨b, he⟩⟩
  · exact inv_of_block_eq hcfg hb h
  · exact inv_of_emptyForm (hcfg ▸ h.cfg_legal) hempty
  · exact he ▸ inv_setSync h hen hs
  · exact he ▸ inv_setErr h hs hr
  · exact he ▸ inv_edgeBit h hs hr herr b

/-- Settles O40: of the deliveries of a step, power-on reset leaves the empty form, an event keeps the invariants, and the
others leave the state record. -/
theorem invariantKeptByStep : Obligations.InvariantKeptByStep := by
  intro s t h hstep
  rcases step_cases s with ⟨-, he⟩ | ⟨-, -, he⟩ | ⟨hl, tr, rest, -, hc⟩
  · rw [he] at hstep
    cases hstep
  · rw [he] at hstep
    cases hstep
    exact h
  · have htaken : ({ s with inputs := rest } : State).Inv := inv_of_block_eq (s := s) rfl rfl h
    rcases hc with ⟨-, -, he⟩ | ⟨-, -, he⟩ | ⟨-, -, he⟩ | ⟨-, -, i, -, he⟩ | ⟨-, -, r, -, he⟩ <;> rw [he] at hstep <;>
      cases hstep
    · exact inv_of_emptyForm hl (by simp [State.emptyForm])
    · exact htaken
    · exact inv_execNext i htaken

/-- Power-on reset satisfies the invariants (R35, R42). -/
theorem inv_powerOn (c : Config) (hl : c.legal = true) : (State.powerOn c).Inv :=
  inv_of_emptyForm hl (by simp [State.emptyForm])

/-- Settles O39: the reset states are in the empty form. -/
theorem invariantAtReset : Obligations.InvariantAtReset :=
  ⟨inv_powerOn, inv_powerOn _ (by decide)⟩

/-! ### Runs of events -/

/-- What every event keeps, a run of events keeps. -/
theorem execAll_preserves {P : State → Prop} (hP : ∀ i s, P s → P (execNext i s)) (is : List Instr) (s t : State)
    (hs : P s) (hrun : execAll is s = .next t) : P t := by
  induction is generalizing s with
  | nil =>
    cases hrun
    exact hs
  | cons i is ih => exact ih (execNext i s) (hP i s hs) (by rwa [execAll_cons] at hrun)

/-- Reached states keep the configuration and satisfy the invariants (R35). -/
theorem ReachedFrom.inv {c : Config} {s : State} (hl : c.legal = true) (h : ReachedFrom c s) : s.Inv ∧ s.cfg = c := by
  obtain ⟨is, hrun⟩ := h
  exact execAll_preserves (P := fun s => s.Inv ∧ s.cfg = c)
    (fun i s ⟨hinv, hc⟩ => ⟨inv_execNext i hinv, (execNext_frame i s).1.trans hc⟩) is _ s ⟨inv_powerOn c hl, rfl⟩ hrun

/-- A block without phase is in the empty form (I1). -/
theorem State.Inv.emptyForm_of_unsynced {s : State} (h : s.Inv) (hs : s.sync = false) : s.emptyForm := by
  obtain ⟨hacc, hrem, hlast, herr, hready⟩ := h.unsynced hs
  exact ⟨hacc, hrem, hlast, herr, hs, hready⟩

/-- Settles O41: the clauses of the invariants, with bit `W - 1` from the bound of I5 and I7 from the EDGE on a ready frame. -/
theorem reachableStates : Obligations.ReachableStates := by
  intro c s hl hreach
  obtain ⟨h, rfl⟩ := hreach.inv hl
  have hbit : s.acc < 2 ^ (s.cfg.w - 1) := h.acc_bound.trans_le (Nat.pow_le_pow_right two_pos (by omega))
  exact ⟨rfl, h.emptyForm_of_unsynced, h.frame_ready, h.latched, h.partial_frame, h.acc_bound,
    Nat.testBit_lt_two_pow hbit, fun hen => h.emptyForm_of_unsynced (h.disabled hen),
    fun hr dir d => ⟨_, exec_edge dir d s, edgeNext_block_of_ready dir d s hr⟩⟩

/-! ### `last` under the latch -/

/-- Under the latch an EDGE either resets, which overwrites `last`, or leaves latch and `last` alone. -/
theorem edgeNext_setLast_of_err (dir : Direction) (d : Nat) (s : State) (b : DataBit) (herr : s.err = true) :
    edgeNext dir d (s.setLast b) = edgeNext dir d s ∨
    (edgeNext dir d s).err = true ∧ edgeNext dir d (s.setLast b) = (edgeNext dir d s).setLast b := by
  rcases edgeNext_cases dir d s with ⟨hen, h⟩ | ⟨hen, hr, h⟩ | ⟨hen, hr, hd, h⟩ | ⟨hen, hr, hs, p, hp, ⟨rfl, h⟩ | ⟨rfl, h⟩⟩ |
    ⟨hen, hr, hs, -, p, hp, h⟩ | ⟨-, -, -, hno, -⟩
  · exact .inr ⟨by rw [h, herr], by rw [h, edgeNext_of_disabled (s := s.setLast b) hen]⟩
  · exact .inr ⟨h ▸ herr, by rw [h, edgeNext_of_ready (s := s.setLast b) hen hr]; rfl⟩
  · exact .inl (by rw [h, edgeNext_of_invalid (s := s.setLast b) hen hr hd]; rfl)
  · exact .inr ⟨h ▸ herr, by
      rw [h, edgeNext_of_valid (s := s.setLast b) hen hr hp, edgeValid_falling_of_unsynced (s := s.setLast b) hs]; rfl⟩
  · exact .inr ⟨by rw [h, herr], by
      rw [h, edgeNext_of_valid (s := s.setLast b) hen hr hp, edgeValid_rising_of_unsynced (s := s.setLast b) hs]⟩
  · exact .inl (by
      rw [h, edgeNext_of_valid (s := s.setLast b) hen hr hp, edgeValid_of_latched (s := s.setLast b) hs herr]; rfl)
  · simp [herr] at hno

/-- Under the latch an event either resets, which overwrites `last`, or leaves latch and `last` alone. -/
theorem execNext_setLast_of_err (i : Instr) (s : State) (b : DataBit) (herr : s.err = true) :
    execNext i (s.setLast b) = execNext i s ∨
    (execNext i s).err = true ∧ execNext i (s.setLast b) = (execNext i s).setLast b := by
  cases i with
  | edge dir d => exact edgeNext_setLast_of_err dir d s b herr
  | timeout =>
    cases hen : s.en with
    | false => exact .inr (by simp [execNext, hen, herr])
    | true => exact .inl (by simp only [execNext, State.setLast_en, hen]; rfl)
  | take =>
    cases hr : s.ready with
    | false => exact .inr ⟨by simp [execNext, hr, herr], by simp only [execNext, State.setLast_ready, hr]; rfl⟩
    | true => exact .inl (by simp only [execNext, State.setLast_ready, hr]; rfl)
  | disable => exact .inl rfl
  | enable => exact .inl rfl

/-- A run from a latched state with another `last`: the two states differ in `last` alone while the latch stays set, and are
equal from the first reset on. -/
theorem execAll_setLast_of_err (is : List Instr) (s t : State) (b : DataBit) (herr : s.err = true)
    (hrun : execAll is s = .next t) :
    execAll is (s.setLast b) = .next t ∨ t.err = true ∧ execAll is (s.setLast b) = .next (t.setLast b) := by
  induction is generalizing s with
  | nil =>
    cases hrun
    exact .inr ⟨herr, rfl⟩
  | cons i is ih =>
    rw [execAll_cons] at hrun ⊢
    rcases execNext_setLast_of_err i s b herr with heq | ⟨herr', heq⟩
    · exact .inl (heq ▸ hrun)
    · rw [heq]
      exact ih (execNext i s) herr' hrun

/-- Settles O57: the two ends of the run are equal, or differ in `last` under the latch, where the three-valued last bit is
Invalid in both. -/
theorem lastIsUnreadUnderTheLatch : Obligations.LastIsUnreadUnderTheLatch := by
  intro s b is t herr hrun
  rcases execAll_setLast_of_err is s t b herr hrun with h | ⟨herr', h⟩
  · exact ⟨t, h, rfl, rfl, rfl, fun _ => rfl⟩
  · exact ⟨t.setLast b, h, rfl, rfl, by simp [State.lastBit, herr'], fun hno => by simp [herr'] at hno⟩

/-! ### The accumulator -/

/-- `s` with another accumulator and other responses so far. -/
def State.withAccOuts (s : State) (a : Nat) (o : List (Option Nat)) : State := { s with acc := a, outs := o }

/-- `u` is `s` but for the accumulator and the values of the frames handed out. -/
def AccTwins (s u : State) : Prop :=
  ∃ a o, u = s.withAccOuts a o ∧ o.map Option.isSome = s.outs.map Option.isSome

/-- No branch of an EDGE is chosen by the accumulator or the responses (R120), and a commit is the only one that reads it. -/
theorem edgeNext_withAccOuts (dir : Direction) (d : Nat) (s : State) (a : Nat) (o : List (Option Nat)) :
    ∃ a', edgeNext dir d (s.withAccOuts a o) = (edgeNext dir d s).withAccOuts a' o := by
  rcases edgeNext_cases dir d s with ⟨hen, h⟩ | ⟨hen, hr, h⟩ | ⟨hen, hr, hd, h⟩ | ⟨hen, hr, hs, p, hp, ⟨rfl, h⟩ | ⟨rfl, h⟩⟩ |
    ⟨hen, hr, hs, herr, p, hp, h⟩ | ⟨hen, hr, hs, herr, p, hp, hres⟩
  · exact ⟨a, by rw [h, edgeNext_of_disabled (s := s.withAccOuts a o) hen]⟩
  · exact ⟨a, by rw [h, edgeNext_of_ready (s := s.withAccOuts a o) hen hr]; rfl⟩
  · exact ⟨0, by rw [h, edgeNext_of_invalid (s := s.withAccOuts a o) hen hr hd]; rfl⟩
  · exact ⟨a, by
      rw [h, edgeNext_of_valid (s := s.withAccOuts a o) hen hr hp,
        edgeValid_falling_of_unsynced (s := s.withAccOuts a o) hs]; rfl⟩
  · exact ⟨a, by
      rw [h, edgeNext_of_valid (s := s.withAccOuts a o) hen hr hp,
        edgeValid_rising_of_unsynced (s := s.withAccOuts a o) hs]⟩
  · exact ⟨0, by
      rw [h, edgeNext_of_valid (s := s.withAccOuts a o) hen hr hp,
        edgeValid_of_latched (s := s.withAccOuts a o) hs herr]; rfl⟩
  · have he : edgeNext dir d (s.withAccOuts a o) = edgeResolved (resolve s.cfg dir s.last p) (s.withAccOuts a o) :=
      (edgeNext_of_valid (s := s.withAccOuts a o) hen hr hp).trans (edgeValid_of_synced (s := s.withAccOuts a o) hs herr)
    rcases hres with ⟨hsym, h⟩ | ⟨hsym, h⟩ | ⟨b, hsym, h⟩
    · exact ⟨a, by rw [he, hsym, h]; rfl⟩
    · exact ⟨a, by rw [he, hsym, h]; rfl⟩
    · exact ⟨shiftIn s.cfg a b, by rw [he, hsym, h, edgeResolved_toSymbol, edgeBit_eq, edgeBit_eq]; rfl⟩

/-- Every event takes twins to twins: a TAKE finds a frame in both or in neither (R140, R141). -/
theorem accTwins_execNext (i : Instr) {s u : State} (h : AccTwins s u) : AccTwins (execNext i s) (execNext i u) := by
  obtain ⟨a, o, rfl, ho⟩ := h
  cases i with
  | edge dir d =>
    obtain ⟨a', he⟩ := edgeNext_withAccOuts dir d s a o
    exact ⟨a', o, he, by rw [ho, execNext_outs _ s (by simp)]⟩
  | timeout =>
    cases hen : s.en with
    | false => exact ⟨a, o, by simp [execNext, State.withAccOuts, hen], by simpa [execNext, hen] using ho⟩
    | true => exact ⟨0, o, by simp [execNext, State.withAccOuts, hen]; rfl, by simpa [execNext, hen] using ho⟩
  | take =>
    cases hr : s.ready with
    | false =>
      exact ⟨a, o ++ [none], by simp [execNext, State.withAccOuts, hr]; rfl, by simp [execNext, hr, ho]⟩
    | true =>
      exact ⟨0, o ++ [some a], by simp [execNext, State.withAccOuts, hr]; rfl, by simp [execNext, hr, ho]⟩
  | disable => exact ⟨0, o, rfl, ho⟩
  | enable => exact ⟨0, o, rfl, ho⟩

/-- A run takes twins to twins. -/
theorem accTwins_execAll (is : List Instr) {s u t : State} (h : AccTwins s u) (hrun : execAll is s = .next t) :
    ∃ v, execAll is u = .next v ∧ AccTwins t v := by
  induction is generalizing s u with
  | nil =>
    cases hrun
    exact ⟨u, rfl, h⟩
  | cons i is ih =>
    rw [execAll_cons] at hrun ⊢
    exact ih (accTwins_execNext i h) hrun

/-- Settles O59: a machine and its copy with another accumulator are twins, and stay so. -/
theorem accumulatorSteersNothing : Obligations.AccumulatorSteersNothing := by
  intro s a is t hrun
  have htwins : AccTwins s { s with acc := a } := ⟨a, s.outs, rfl, rfl⟩
  obtain ⟨v, hv, a', o, rfl, ho⟩ := accTwins_execAll is htwins hrun
  exact ⟨t.withAccOuts a' o, hv, rfl, rfl, ho⟩

/-! ### A run of edges for every frame -/

/-- The configured half-bit period is a Short and twice it is a Long (R27, R90). -/
theorem classify_periods (c : Config) (hl : c.legal = true) :
    classify c c.t = .short ∧ classify c (2 * c.t) = .long := by
  obtain ⟨htol, ht, -⟩ := legal_bounds c hl
  have hshort : inWindow c c.shortMin c.shortMax c.t = true := by
    rw [inWindow_iff]
    unfold Config.shortMin Config.shortMax
    omega
  have hlong : inWindow c c.longMin c.longMax (2 * c.t) = true := by
    rw [inWindow_iff]
    unfold Config.longMin Config.longMax
    omega
  have hnot : ¬ inWindow c c.shortMin c.shortMax (2 * c.t) = true := fun h => windows_disjoint c _ hl ⟨h, hlong⟩
  exact ⟨by simp [classify, hshort], by simp [classify, hnot, hlong]⟩

/-- An edge that commits the bit `b` after the bit `last`: Rising for a Zero and Falling for a One, long exactly when the bits
differ (R30, R31). -/
def edgeFor (c : Config) : DataBit → DataBit → Direction × Nat
  | .zero, .zero => (.rising, c.t)
  | .one, .zero => (.rising, 2 * c.t)
  | .zero, .one => (.falling, 2 * c.t)
  | .one, .one => (.falling, c.t)

/-- The edges that commit the bits `bs` after the bit `last`. -/
def edgesFor (c : Config) : DataBit → List DataBit → List (Direction × Nat)
  | _, [] => []
  | last, b :: bs => edgeFor c last b :: edgesFor c b bs

/-- The edge for a bit is valid and resolves to it, whatever `FZS` is: it avoids the cell `(Zero, Short)` of FALL (R31). -/
theorem edgeFor_resolves (c : Config) (hl : c.legal = true) (last b : DataBit) :
    ∃ p, (classify c (edgeFor c last b).2).pulse = some p ∧ resolve c (edgeFor c last b).1 last p = b.toSymbol := by
  obtain ⟨hshort, hlong⟩ := classify_periods c hl
  cases last <;> cases b
  · exact ⟨.short, by simp [edgeFor, hshort, PulseClass.pulse], rfl⟩
  · exact ⟨.long, by simp [edgeFor, hlong, PulseClass.pulse], rfl⟩
  · exact ⟨.long, by simp [edgeFor, hlong, PulseClass.pulse], rfl⟩
  · exact ⟨.short, by simp [edgeFor, hshort, PulseClass.pulse], rfl⟩

/-- The edge for a bit commits it, on a frame in progress (R128). -/
theorem edgeNext_edgeFor {s : State} (hl : s.cfg.legal = true) (hen : s.en = true) (hr : s.ready = false)
    (hs : s.sync = true) (herr : s.err = false) (b : DataBit) :
    edgeNext (edgeFor s.cfg s.last b).1 (edgeFor s.cfg s.last b).2 s = edgeBit b s := by
  obtain ⟨p, hp, hres⟩ := edgeFor_resolves s.cfg hl s.last b
  rw [edgeNext_of_valid hen hr hp, edgeValid_of_synced hs herr, hres, edgeResolved_toSymbol]

/-- From a synchronized state with as many slots left as there are bits, the edges for the bits and a TAKE respond with the
accumulator continued by the bits (R98, R140). -/
theorem execAll_edgesFor_take (bs : List DataBit) {s : State} (h : s.Inv) (hen : s.en = true) (hs : s.sync = true)
    (herr : s.err = false) (hrem : s.rem = bs.length) :
    ∃ t, execAll (edgeEvents (edgesFor s.cfg s.last bs) ++ [.take]) s = .next t ∧
      t.outs = s.outs ++ [some (bs.foldl (fun a b => 2 * a + b.val) s.acc)] := by
  induction bs generalizing s with
  | nil =>
    have hr : s.ready = true := by
      by_contra hno
      have := (h.partial_frame hs (by simpa using hno)).1
      simp [hrem] at this
    exact ⟨_, execAll_cons .take [] s, by simp [execNext, hr]⟩
  | cons b bs ih =>
    have hpos : 1 ≤ s.rem := by simp [hrem]
    have hr : s.ready = false := by
      by_contra hno
      obtain ⟨-, -, hzero⟩ := h.frame_ready (by simpa using hno)
      omega
    have hbit := edgeBit_of_inv h hpos b
    obtain ⟨t, hrun, houts⟩ := ih (s := edgeBit b s) (inv_edgeBit h hs hr herr b)
      (by simp [hbit, hen]) (by simp [hbit, hs]) (by simp [hbit, herr]) (by simp [hbit, hrem])
    refine ⟨t, ?_, ?_⟩
    · have hstep : execNext (.edge (edgeFor s.cfg s.last b).1 (edgeFor s.cfg s.last b).2) s = edgeBit b s :=
        edgeNext_edgeFor h.cfg_legal hen hr hs herr b
      rw [edgesFor, edgeEvents, List.map_cons, List.cons_append, execAll_cons, hstep, ← hrun]
      simp [hbit, edgeEvents]
    · simpa [hbit] using houts

/-- The edges for bits last `T` or `2T`. -/
theorem edgesFor_durations (c : Config) (last : DataBit) (bs : List DataBit) (e : Direction × Nat)
    (he : e ∈ edgesFor c last bs) : e.2 = c.t ∨ e.2 = 2 * c.t := by
  induction bs generalizing last with
  | nil => cases he
  | cons b bs ih =>
    rcases List.mem_cons.1 he with rfl | htail
    · cases last <;> cases b <;> simp [edgeFor]
    · exact ih b htail

/-- With the boot condition the input carries `T` and `2T` (R195). -/
theorem period_lt_of_bootCheck (c : Config) (hb : c.bootCheck = true) (d : Nat) (hd : d = c.t ∨ d = 2 * c.t) :
    d < 2 ^ c.dw := by
  have hpow : 0 < 2 ^ c.dw := Nat.two_pow_pos _
  have hmax : c.longMax ≤ 2 ^ c.dw - 1 := by
    unfold Config.bootCheck at hb
    cases hu : c.upperInclusive <;> simp [hu] at hb <;> omega
  unfold Config.longMax at hmax
  omega

/-- Settles O49: a Falling edge synchronizes the enabled empty form, and the edges for the bits follow. -/
theorem everyFrameIsReceivable : Obligations.EveryFrameIsReceivable := by
  intro c bs hl hen hlen
  have hpulse : (classify c c.t).pulse = some .short := by rw [(classify_periods c hl).1]; rfl
  have hsync : execNext (.edge .falling c.t) (State.powerOn c) = (State.powerOn c).setSync true :=
    (edgeNext_of_valid (s := State.powerOn c) hen rfl hpulse).trans (edgeValid_falling_of_unsynced rfl)
  obtain ⟨t, hrun, houts⟩ := execAll_edgesFor_take bs (inv_setSync (inv_powerOn c hl) hen rfl) hen rfl rfl hlen.symm
  refine ⟨(.falling, c.t) :: edgesFor c .one bs, t, ?_, houts, fun hb i hi => ?_⟩
  · rw [edgeEvents, List.map_cons, List.cons_append, execAll_cons, hsync]
    exact hrun
  · obtain ⟨e, he, rfl⟩ := List.mem_map.1 hi
    have hdur : e.2 = c.t ∨ e.2 = 2 * c.t := by
      rcases List.mem_cons.1 he with rfl | htail
      · exact .inl rfl
      · exact edgesFor_durations c .one bs e htail
    simpa [Instr.wellFormed] using period_lt_of_bootCheck c hb e.2 hdur

end Sys2Proof.Machine

/-! PROOFS for the family of 20_memory.md: what a step does with a presented event word (R55, R56, R57), the order of the bits in
a frame (R51), simultaneous events (R56) and idempotent ones (R61). -/

namespace Sys2Proof.Machine

open Sys2Proof

/-! ### The word of an event, decoded -/

/-- An EDGE's word is read back as its direction and its duration, if the duration input carries the duration (R72, R75). -/
theorem decode_encode_edge {dw : Nat} (hdw : dw ≤ 27) (dir : Direction) {d : Nat} (hd : d < 2 ^ dw) :
    decode dw (encode (.edge dir d)) = .event (.edge dir d) := by
  have hd27 : d < 2 ^ 27 := hd.trans_le (Nat.pow_le_pow_right two_pos hdw)
  have hword : (encode (.edge dir d)).toNat = 2 ^ 28 + dir.code.toNat * 2 ^ 27 + d := by
    rw [encode_edge_toNat, Nat.mod_eq_of_lt hd27]
  have hcode : dir.code.toNat < 2 := dir.code.isLt
  have hop : opField (encode (.edge dir d)) = 0x1#4 := (Laws.OpField.edge dir d).1
  have hdur : (durField (encode (.edge dir d))).toNat = d := by
    rw [durField_toNat]
    omega
  have hfits : durField (encode (.edge dir d)) >>> dw = 0#27 := by
    rw [durField_shift_eq_zero_iff, ← durField_toNat, hdur, Nat.div_eq_of_lt hd]
  have hbit : dirField (encode (.edge dir d)) = dir.code := by
    rw [← BitVec.toNat_inj, dirField_toNat]
    omega
  have hdir : decodeDirection (encode (.edge dir d)) = dir := by
    rw [decodeDirection, hbit]
    cases dir <;> rfl
  simp [decode, hop, hfits, hdir, hdur]

/-- The word of a well-formed event is read back as that event (R70 to R73, R75); but for EDGE an event has one word. -/
theorem decode_encode {dw : Nat} (hdw : dw ≤ 27) {i : Instr} (hi : i.wellFormed dw = true) :
    decode dw (encode i) = .event i := by
  cases i with
  | edge dir d => exact decode_encode_edge hdw dir (by simpa [Instr.wellFormed] using hi)
  | timeout => rfl
  | take => rfl
  | disable => rfl
  | enable => rfl

/-! ### A step on a presented event -/

/-- A transaction that presents the word of an event delivers that event (R40, R75). -/
theorem deliverTransaction_of_event {tr : Transaction} {s : State} {i : Instr} (hrst : tr.rst = false)
    (hv : tr.evValid = true) (hdec : decode s.cfg.dw tr.evWord = .event i) : deliverTransaction tr s = .event i s := by
  simp [deliverTransaction, deliverWord, hrst, hv, hdec]

/-- Settles O19: what the ports deliver is the decoded event, on the state without its transaction. -/
theorem stepRunsTheDecodedEvent : Obligations.StepRunsTheDecodedEvent := by
  intro s tr rest i hl hi hrst hv hdec
  have hdel : deliverTransaction tr { s with inputs := rest } = .event i { s with inputs := rest } :=
    deliverTransaction_of_event hrst hv hdec
  rw [step, deliver_of_cons hl hi, hdel]

/-! ### A run on the words of events -/

/-- `s` with another list of transactions to come. -/
def State.withInputs (s : State) (l : List Transaction) : State := { s with inputs := l }

@[simp] theorem State.withInputs_withInputs (s : State) (l m : List Transaction) :
    (s.withInputs l).withInputs m = s.withInputs m := rfl

/-- A resolution does the same whatever transactions are to come. -/
theorem edgeResolved_withInputs (sym : BitSymbol) (s : State) (l : List Transaction) :
    edgeResolved sym (s.withInputs l) = (edgeResolved sym s).withInputs l := by
  have hbit (b : DataBit) : edgeBit b (s.withInputs l) = (edgeBit b s).withInputs l := by
    rw [edgeBit_eq, edgeBit_eq]
    rfl
  cases sym with
  | invalid => rfl
  | noBit => rfl
  | zero => exact hbit .zero
  | one => exact hbit .one

/-- A valid pulse does the same whatever transactions are to come. -/
theorem edgeValid_withInputs (dir : Direction) (p : Pulse) (s : State) (l : List Transaction) :
    edgeValid dir p (s.withInputs l) = (edgeValid dir p s).withInputs l := by
  cases hs : s.sync with
  | false =>
    cases dir with
    | falling => rw [edgeValid_falling_of_unsynced hs, edgeValid_falling_of_unsynced (s := s.withInputs l) hs]; rfl
    | rising => rw [edgeValid_rising_of_unsynced hs, edgeValid_rising_of_unsynced (s := s.withInputs l) hs]
  | true =>
    cases herr : s.err with
    | true => rw [edgeValid_of_latched hs herr, edgeValid_of_latched (s := s.withInputs l) hs herr]; rfl
    | false =>
      rw [edgeValid_of_synced hs herr, edgeValid_of_synced (s := s.withInputs l) hs herr]
      exact edgeResolved_withInputs _ s l

/-- An EDGE does the same whatever transactions are to come. -/
theorem edgeNext_withInputs (dir : Direction) (d : Nat) (s : State) (l : List Transaction) :
    edgeNext dir d (s.withInputs l) = (edgeNext dir d s).withInputs l := by
  cases hen : s.en with
  | false => rw [edgeNext_of_disabled hen, edgeNext_of_disabled (s := s.withInputs l) hen]
  | true =>
    cases hr : s.ready with
    | true => rw [edgeNext_of_ready hen hr, edgeNext_of_ready (s := s.withInputs l) hen hr]; rfl
    | false =>
      cases hp : (classify s.cfg d).pulse with
      | none =>
        have hd := (pulse_eq_none_iff _).1 hp
        rw [edgeNext_of_invalid hen hr hd, edgeNext_of_invalid (s := s.withInputs l) hen hr hd]
        rfl
      | some p =>
        rw [edgeNext_of_valid hen hr hp, edgeNext_of_valid (s := s.withInputs l) hen hr hp, edgeValid_withInputs]

/-- No event reads or takes the transactions to come (R57): whatever they are, it does the same. -/
theorem execNext_withInputs (i : Instr) (s : State) (l : List Transaction) :
    execNext i (s.withInputs l) = (execNext i s).withInputs l := by
  cases i with
  | edge dir d => exact edgeNext_withInputs dir d s l
  | timeout =>
    simp only [execNext, apply_ite (fun t : State => t.withInputs l)]
    rfl
  | take =>
    simp only [execNext, apply_ite (fun t : State => t.withInputs l)]
    rfl
  | disable => rfl
  | enable => rfl

/-- What a step that answers a next state has done: idled for want of a transaction, or taken one and reset, idled, or run an
event. -/
theorem step_next_cases {s t : State} (h : step s = .next t) : t = s ∨ ∃ rest, t = (s.withInputs rest).powerOnReset ∨
    t = s.withInputs rest ∨ ∃ i, t = execNext i (s.withInputs rest) := by
  rcases step_cases s with ⟨-, he⟩ | ⟨-, -, he⟩ | ⟨-, tr, rest, -, hc⟩
  · rw [he] at h
    cases h
  · exact .inl (Host.Outcome.next.inj (h.symm.trans he))
  · refine .inr ⟨rest, ?_⟩
    rcases hc with ⟨-, -, he⟩ | ⟨-, -, he⟩ | ⟨-, -, he⟩ | ⟨-, -, i, -, he⟩ | ⟨-, -, r, -, he⟩ <;> rw [he] at h <;> cases h
    · exact .inl rfl
    · exact .inr (.inl rfl)
    · exact .inr (.inr ⟨i, rfl⟩)

/-- A step on the word of a well-formed event is that event, run with the transaction taken. -/
theorem step_presentEvent {s : State} {i : Instr} {rest : List Transaction} (hl : s.cfg.legal = true)
    (hwf : i.wellFormed s.cfg.dw = true) (hin : s.inputs = presentEvent i :: rest) :
    step s = .next (execNext i (s.withInputs rest)) := by
  obtain ⟨-, -, -, -, -, hdw⟩ := legal_bounds s.cfg hl
  rw [← exec_eq_next]
  exact stepRunsTheDecodedEvent s (presentEvent i) rest i hl hin rfl rfl (decode_encode hdw hwf)

/-- A run of the machine goes on from the state its first step answers. -/
theorem run_succ_of_step {s t : State} (n : Nat) (h : step s = .next t) :
    Host.Core.run core (n + 1) s = Host.Core.run core n t := by
  have hcore : core.step s = .next t := h
  simp only [Host.Core.run, hcore]

/-- The words of well-formed events, run one step each, are the events (R55 to R57): no event takes a transaction, so each step
finds the next word. -/
theorem run_words_eq_execAll (is : List Instr) (s : State) (rest : List Transaction) (hl : s.cfg.legal = true)
    (hwf : ∀ i ∈ is, i.wellFormed s.cfg.dw = true) (hin : s.inputs = is.map presentEvent ++ rest) :
    Host.Core.run core is.length s = execAll is (s.withInputs rest) := by
  induction is generalizing s with
  | nil =>
    obtain rfl : s.inputs = rest := hin
    rfl
  | cons i is ih =>
    obtain ⟨hwfi, hwfs⟩ := List.forall_mem_cons.1 hwf
    have hin' : s.inputs = presentEvent i :: (is.map presentEvent ++ rest) := hin
    have hstep := step_presentEvent hl hwfi hin'
    obtain ⟨hcfg, hinputs⟩ := execNext_frame i (s.withInputs (is.map presentEvent ++ rest))
    rw [List.length_cons, run_succ_of_step _ hstep, ih _ (by rwa [hcfg]) (by rwa [hcfg]) hinputs,
      execAll_cons, ← execNext_withInputs, State.withInputs_withInputs]

/-- Settles O45, by induction on the events. -/
theorem wordRunsAreEventRuns : Obligations.WordRunsAreEventRuns :=
  fun s is rest hl hwf hin => run_words_eq_execAll is s rest hl hwf hin

/-! ### Frames handed out -/

/-- The response of a TAKE is the accumulator of a ready frame, or None (R140, R141). -/
theorem execNext_take_outs (s : State) :
    (execNext .take s).outs = s.outs ++ [if s.ready then some s.acc else none] := by
  cases hr : s.ready <;> simp [execNext, hr]

/-- The accumulator holds at most the `W - 1` bits of a frame (R35 I5, R51). -/
theorem State.Inv.acc_lt_frame {s : State} (h : s.Inv) : s.acc < 2 ^ (s.cfg.w - 1) :=
  h.acc_bound.trans_le (Nat.pow_le_pow_right two_pos (by omega))

/-- Every frame handed out so far is below `2^(W-1)` (R51). -/
def State.FramesShort (s : State) : Prop := ∀ f, some f ∈ s.outs → f < 2 ^ (s.cfg.w - 1)

/-- An event within the invariants hands out no longer frame: only a TAKE hands out any, and that is the accumulator. -/
theorem framesShort_execNext {s : State} (i : Instr) (h : s.Inv) (hshort : s.FramesShort) :
    (execNext i s).FramesShort := by
  intro f hf
  rw [(execNext_frame i s).1]
  by_cases hi : i = .take
  · rw [hi, execNext_take_outs, List.mem_append, List.mem_singleton] at hf
    rcases hf with hold | hnew
    · exact hshort f hold
    · cases hr : s.ready <;> simp [hr] at hnew
      exact hnew ▸ h.acc_lt_frame
  · rw [execNext_outs i s hi] at hf
    exact hshort f hf

/-- Settles O46: of the deliveries of a step that answer a next state only an event can add a response. -/
theorem drainedFramesAreShort : Obligations.DrainedFramesAreShort := by
  intro s t h hshort hstep
  rcases step_next_cases hstep with rfl | ⟨rest, rfl | rfl | ⟨i, rfl⟩⟩
  · exact hshort
  · exact hshort
  · exact hshort
  · exact framesShort_execNext i (inv_of_block_eq (s := s) rfl rfl h) hshort

/-! ### The bits of a frame -/

/-- One bit more (R98, R100). -/
theorem frameValue_append_singleton (bs : List DataBit) (b : DataBit) :
    frameValue (bs ++ [b]) = 2 * frameValue bs + b.val := by
  simp [frameValue]

/-- Bit `n` of a frame's value is the bit that stands `n` places before the last (R21, R51). -/
theorem testBit_frameValue (bs : List DataBit) (n : Nat) :
    (frameValue bs).testBit n = decide (bs.reverse[n]? = some .one) := by
  induction bs using List.reverseRecOn generalizing n with
  | nil => simp [frameValue]
  | append_singleton bs b ih =>
    have hval := val_lt_two b
    rw [frameValue_append_singleton, List.reverse_concat]
    cases n with
    | zero => cases b <;> simp [Nat.testBit_zero]
    | succ n =>
      have hhalf : (2 * frameValue bs + b.val) / 2 = frameValue bs := by omega
      rw [Nat.testBit_succ, hhalf, ih, List.getElem?_cons_succ]

/-- The `j`-th of `k` bits, counted from 1, stands at bit `k - j`. -/
theorem testBit_frameValue_of_getElem? {bs : List DataBit} {j : Nat} {b : DataBit} (hj : 1 ≤ j)
    (hb : bs[j - 1]? = some b) : (frameValue bs).testBit (bs.length - j) = decide (b = .one) := by
  have hlt : j - 1 < bs.length := (List.getElem?_eq_some_iff.1 hb).1
  have hidx : bs.length - 1 - (bs.length - j) = j - 1 := by omega
  rw [testBit_frameValue, List.getElem?_reverse (by omega), hidx, hb]
  simp

/-- From `k` bits no bit from `k` on is set. -/
theorem testBit_frameValue_of_length_le {bs : List DataBit} {n : Nat} (hn : bs.length ≤ n) :
    (frameValue bs).testBit n = false := by
  have hnone : bs.reverse[n]? = none := List.getElem?_eq_none (by simpa using hn)
  simp [testBit_frameValue, hnone]

/-! ### Runs of edges that the tables read as bits -/

/-- A run goes on from where its first part ends (R180). -/
theorem execAll_append_of_next {is js : List Instr} {s t : State} (h : execAll is s = .next t) :
    execAll (is ++ js) s = execAll js t := by
  induction is generalizing s with
  | nil =>
    cases h
    rfl
  | cons i is ih =>
    rw [execAll_cons] at h
    rw [List.cons_append, execAll_cons, ih h]

/-- A run of edges that reads as bits begins with a valid edge that resolves to no bit, or to the first of the bits. -/
theorem readEdges_cons_eq_some {c : Config} {last : DataBit} {dir : Direction} {d : Nat} {es : List (Direction × Nat)}
    {bs : List DataBit} (h : readEdges c last ((dir, d) :: es) = some bs) :
    ∃ p, (classify c d).pulse = some p ∧
      ((resolve c dir last p = .noBit ∧ readEdges c last es = some bs) ∨
       ∃ b bs', resolve c dir last p = b.toSymbol ∧ readEdges c b es = some bs' ∧ bs = b :: bs') := by
  cases hp : (classify c d).pulse with
  | none => simp [readEdges, hp] at h
  | some p =>
    refine ⟨p, rfl, ?_⟩
    cases hres : resolve c dir last p with
    | invalid => simp [readEdges, hp, hres] at h
    | noBit => exact .inl ⟨rfl, by simpa [readEdges, hp, hres] using h⟩
    | zero =>
      obtain ⟨bs', hread, rfl⟩ : ∃ bs', readEdges c .zero es = some bs' ∧ .zero :: bs' = bs := by
        simpa [readEdges, hp, hres] using h
      exact .inr ⟨.zero, bs', rfl, hread, rfl⟩
    | one =>
      obtain ⟨bs', hread, rfl⟩ : ∃ bs', readEdges c .one es = some bs' ∧ .one :: bs' = bs := by
        simpa [readEdges, hp, hres] using h
      exact .inr ⟨.one, bs', rfl, hread, rfl⟩

/-- A block that receives a frame, or holds a received one: synchronized and without a latched error. -/
structure State.Receiving (s : State) : Prop where
  /-- The invariants (R35). -/
  inv : s.Inv
  /-- Edges are delivered. -/
  enabled : s.en = true
  /-- Phase is established. -/
  synced : s.sync = true
  /-- No error is latched. -/
  unlatched : s.err = false

/-- The synchronized empty form is ready for the first bit (R124). -/
theorem State.justSynced.receiving {s : State} (hl : s.cfg.legal = true) (h : s.justSynced) : s.Receiving := by
  obtain ⟨hen, hsync, hready, herr, hacc, hrem, hlast⟩ := h
  obtain ⟨-, -, -, hw, -⟩ := legal_bounds s.cfg hl
  refine ⟨?_, hen, hsync, herr⟩
  constructor <;> simp_all
  omega

/-- Of a receiving block the frame is ready exactly when no slot is left (R26, R35). -/
theorem State.Receiving.ready_iff {s : State} (h : s.Receiving) : s.ready = true ↔ s.rem = 0 := by
  constructor
  · intro hr
    obtain ⟨-, -, hrem⟩ := h.inv.frame_ready hr
    exact hrem
  · intro hrem
    by_contra hno
    obtain ⟨hpos, -⟩ := h.inv.partial_frame h.synced (by simpa using hno)
    omega

/-- An edge that resolves to no bit leaves the block alone, whether the frame is in progress or ready (R122, R127). -/
theorem State.Receiving.edgeNext_of_noBit {s : State} (h : s.Receiving) {dir : Direction} {d : Nat} {p : Pulse}
    (hp : (classify s.cfg d).pulse = some p) (hres : resolve s.cfg dir s.last p = .noBit) :
    (edgeNext dir d s).block = s.block := by
  cases hr : s.ready with
  | true => exact edgeNext_block_of_ready dir d s hr
  | false => rw [edgeNext_of_valid h.enabled hr hp, edgeValid_of_synced h.synced h.unlatched, hres]; rfl

/-- An edge that resolves to a bit commits it, while a slot is left (R128). -/
theorem State.Receiving.edgeNext_of_bit {s : State} (h : s.Receiving) {dir : Direction} {d : Nat} {p : Pulse} {b : DataBit}
    (hp : (classify s.cfg d).pulse = some p) (hres : resolve s.cfg dir s.last p = b.toSymbol) (hpos : 1 ≤ s.rem) :
    edgeNext dir d s = edgeBit b s ∧ (edgeBit b s).Receiving := by
  have hr : s.ready = false := by
    rw [← Bool.not_eq_true, h.ready_iff]
    omega
  have hbit := edgeBit_of_inv h.inv hpos b
  refine ⟨?_, inv_edgeBit h.inv h.synced hr h.unlatched b, ?_, ?_, ?_⟩
  · rw [edgeNext_of_valid h.enabled hr hp, edgeValid_of_synced h.synced h.unlatched, hres, edgeResolved_toSymbol]
  · rw [hbit]; exact h.enabled
  · rw [hbit]; exact h.synced
  · rw [hbit]; exact h.unlatched

/-- A run of edges that the tables read as bits, no more than slots are left, continues the accumulator by these bits and fills
as many slots; nothing is handed out. The edges that follow the last bit change no bit, whether they come before the frame is
ready or after. -/
theorem execAll_edges_of_readEdges (es : List (Direction × Nat)) {s : State} {bs : List DataBit} (h : s.Receiving)
    (hread : readEdges s.cfg s.last es = some bs) (hlen : bs.length ≤ s.rem) :
    ∃ t, execAll (edgeEvents es) s = .next t ∧ t.Receiving ∧ t.outs = s.outs ∧
      t.acc = bs.foldl (fun a b => 2 * a + b.val) s.acc ∧ t.rem = s.rem - bs.length := by
  induction es generalizing s bs with
  | nil =>
    obtain rfl : [] = bs := Option.some.inj hread
    exact ⟨s, rfl, h, rfl, rfl, rfl⟩
  | cons e es ih =>
    obtain ⟨dir, d⟩ := e
    have hrun : execAll (edgeEvents ((dir, d) :: es)) s = execAll (edgeEvents es) (edgeNext dir d s) :=
      execAll_cons _ _ s
    have hcfg : (edgeNext dir d s).cfg = s.cfg := (execNext_frame (.edge dir d) s).1
    obtain ⟨-, houts⟩ := edgeNext_en_outs dir d s
    rw [hrun, ← houts]
    obtain ⟨p, hp, ⟨hres, hrest⟩ | ⟨b, bs', hres, hrest, rfl⟩⟩ := readEdges_cons_eq_some hread
    · have hblock := h.edgeNext_of_noBit hp hres
      obtain ⟨hacc, hrem, hlast, herr, hsync, -, hen⟩ := (block_eq_iff _ _).1 hblock
      have hrec : (edgeNext dir d s).Receiving :=
        ⟨inv_of_block_eq hcfg hblock h.inv, hen.trans h.enabled, hsync.trans h.synced, herr.trans h.unlatched⟩
      rw [← hacc, ← hrem]
      exact ih hrec (by rw [hcfg, hlast, hrest]) (by rw [hrem]; exact hlen)
    · rw [List.length_cons] at hlen ⊢
      have hpos : 1 ≤ s.rem := by omega
      obtain ⟨hnext, hrec⟩ := h.edgeNext_of_bit hp hres hpos
      have hbit := edgeBit_of_inv h.inv hpos b
      obtain ⟨t, ht, htrec, htouts, htacc, htrem⟩ := ih (s := edgeBit b s) (bs := bs') hrec
        (by rw [hbit]; exact hrest) (by rw [hbit]; simp only; omega)
      rw [hnext]
      refine ⟨t, ht, htrec, htouts, ?_, ?_⟩
      · rw [htacc, hbit, List.foldl_cons]
      · rw [htrem, hbit]
        simp only
        omega

/-- Settles O48: the run of edges leaves the value of its bits in the accumulator, whose binary digits they are; at `W - 1` bits
no slot is left, so the frame is ready and the TAKE responds with the accumulator. -/
theorem firstCommittedBitIsHighest : Obligations.FirstCommittedBitIsHighest := by
  intro s es bs hl hsynced hread hlen
  obtain ⟨-, -, -, hw, -⟩ := legal_bounds s.cfg hl
  have hrec := hsynced.receiving hl
  obtain ⟨-, -, -, -, hacc0, hrem0, hlast0⟩ := hsynced
  obtain ⟨t, hrun, htrec, htouts, htacc, htrem⟩ :=
    execAll_edges_of_readEdges es hrec (by rw [hlast0, hread]) (by rw [hrem0]; exact hlen)
  have hvalue : t.acc = frameValue bs := by rw [htacc, hacc0, frameValue]
  refine ⟨⟨t, hrun, ?_, ?_⟩, fun hfull => ⟨execNext .take t, frameValue bs, ?_, ?_, ?_, ?_, ?_, ?_⟩⟩
  · intro j b hj hb
    rw [hvalue]
    exact testBit_frameValue_of_getElem? hj hb
  · intro n hn
    rw [hvalue]
    exact testBit_frameValue_of_length_le hn
  · rw [execAll_append_of_next hrun, execAll_cons, execAll_nil]
  · have hready : t.ready = true := htrec.ready_iff.2 (by omega)
    rw [execNext_take_outs, hready, htouts, hvalue]
    rfl
  · intro b hb
    rw [show s.cfg.w - 2 = bs.length - 1 by omega]
    exact testBit_frameValue_of_getElem? le_rfl (by rw [← hb, List.head?_eq_getElem?])
  · intro b hb
    rw [← Nat.sub_self bs.length]
    exact testBit_frameValue_of_getElem? (by omega) (by rw [← hb, List.getLast?_eq_getElem?])
  · intro j b hj hb
    rw [← hfull]
    exact testBit_frameValue_of_getElem? hj hb
  · intro n hn
    exact testBit_frameValue_of_length_le (by omega)

/-! ### Simultaneous events -/

/-- The serialisations of one batch are its permutations (R56). -/
theorem serialises_singleton (batch order : List Instr) : Serialises [batch] order ↔ order.Perm batch := by
  constructor
  · rintro ⟨now, rest, hperm, rfl, rfl⟩
    rwa [List.append_nil]
  · intro hperm
    exact ⟨order, [], hperm, rfl, (List.append_nil _).symm⟩

/-- Two simultaneous events come in one of two orders (R56). -/
theorem serialises_pair (i j : Instr) (order : List Instr) :
    Serialises [[i, j]] order ↔ order = [i, j] ∨ order = [j, i] :=
  (serialises_singleton _ _).trans List.perm_pair

/-- A TAKE and then a TIMEOUT, on a ready frame: the frame is handed out, and the empty form is left (R130, R140). -/
theorem execAll_take_timeout {s : State} (hr : s.ready = true) (hen : s.en = true) :
    ∃ t, execAll [.take, .timeout] s = .next t ∧ t.emptyForm ∧ t.outs = s.outs ++ [some s.acc] := by
  have hen' : (execNext .take s).en = true := by simp [execNext, hr, hen]
  obtain ⟨hempty, houts⟩ := execNext_emptyForm (execNext .take s) .timeout (.inl ⟨rfl, hen'⟩)
  refine ⟨_, by simp only [execAll_cons, execAll_nil], hempty, ?_⟩
  rw [houts, execNext_take_outs, hr]
  rfl

/-- A TIMEOUT and then a TAKE, while enabled: the frame is discarded, and the TAKE answers None (R130, R141, R200). -/
theorem execAll_timeout_take {s : State} (hen : s.en = true) :
    ∃ t, execAll [.timeout, .take] s = .next t ∧ t.emptyForm ∧ t.outs = s.outs ++ [none] := by
  obtain ⟨hempty, houts⟩ := execNext_emptyForm s .timeout (.inl ⟨rfl, hen⟩)
  obtain ⟨-, -, -, -, -, hready⟩ := id hempty
  refine ⟨(execNext .timeout s).respond none, ?_, hempty, ?_⟩
  · rw [execAll_cons, execAll_cons, execNext_take_of_not_ready _ hready, execAll_nil]
  · rw [State.respond_outs, houts]

/-- Settles O56: the two orders of the batch, each with its outcome; a run has one outcome only. -/
theorem simultaneousTakeAndTimeout : Obligations.SimultaneousTakeAndTimeout := by
  refine ⟨fun s hr hen => ?_, fun dir d => rfl, rfl⟩
  obtain ⟨t₁, hrun₁, hempty₁, houts₁⟩ := execAll_take_timeout hr hen
  obtain ⟨t₂, hrun₂, hempty₂, houts₂⟩ := execAll_timeout_take hen
  refine ⟨⟨_, t₁, (serialises_pair _ _ _).2 (.inl rfl), hrun₁, houts₁⟩,
    ⟨_, t₂, (serialises_pair _ _ _).2 (.inr rfl), hrun₂, houts₂⟩, fun order t hser hrun => ?_⟩
  rcases (serialises_pair _ _ _).1 hser with rfl | rfl
  · obtain rfl : t₁ = t := Host.Outcome.next.inj (hrun₁.symm.trans hrun)
    exact ⟨hempty₁, .inl houts₁⟩
  · obtain rfl : t₂ = t := Host.Outcome.next.inj (hrun₂.symm.trans hrun)
    exact ⟨hempty₂, .inr houts₂⟩

/-! ### Idempotent events -/

/-- Events always answer, so `Goes` speaks of the state an event leaves (R160). -/
theorem goes_iff (i : Instr) (s : State) (P : State → Prop) : Goes i s P ↔ P (execNext i s) := by
  simp [Goes, exec_eq_next]

/-- A recovering event finds the block as the same event left it (R61): disabled, a TIMEOUT does nothing; else each resets to
the one empty form and writes `en` as before. -/
theorem execNext_twice_block (s : State) {i : Instr} (hi : i = .timeout ∨ i = .disable ∨ i = .enable) :
    (execNext i (execNext i s)).block = (execNext i s).block := by
  rcases hi with rfl | rfl | rfl
  · cases hen : s.en with
    | false => simp [execNext, hen]
    | true => simp [execNext, hen, State.block]
  · rfl
  · rfl

/-- Settles O38. EDGE is not idempotent: after reset a Falling edge of one half-bit period synchronizes, a second commits a
One. -/
theorem idempotentEvents : Obligations.IdempotentEvents := by
  simp only [Obligations.IdempotentEvents, goes_iff]
  refine ⟨fun s i hi => execNext_twice_block s hi, fun s hr => ?_, fun s hr => ⟨fun hblock => ?_, ?_⟩,
    State.reset, 900, invariantAtReset.2, by decide⟩
  · rw [execNext_take_of_not_ready s hr]
    rfl
  · have hready := congrArg Block.ready hblock
    simp [execNext, hr] at hready
  · have hready : (execNext .take s).ready = false := by simp [execNext, hr]
    rw [execNext_take_outs, execNext_take_outs, hready, hr]
    simp

end Sys2Proof.Machine

/-! PROOFS for the family of 30_encoding.md: event words and their decoder (R70 to R75, R77), the table ROMs (R69), the TAKE
response (R78) and the textual form (R79, R80). -/

namespace Sys2Proof.Machine

open Sys2Proof

/-! ### What the decoder answers -/

/-- The events without an operand (R73). -/
def plainEvents : List Instr := [.timeout, .take, .disable, .enable]

/-- What `plainEvents` have in common: an operation code from 2 to 5 and nothing else in the word (R71, R73), and no operand to
check (R72). -/
theorem plainEvents_facts {i : Instr} (hi : i ∈ plainEvents) :
    2 ≤ i.opcode.toNat ∧ i.opcode.toNat ≤ 5 ∧ (encode i).toNat = i.opcode.toNat * 2 ^ 28 ∧ ∀ dw, i.wellFormed dw = true := by
  simp only [plainEvents, List.mem_cons, List.not_mem_nil, or_false] at hi
  rcases hi with rfl | rfl | rfl | rfl <;> exact ⟨by decide, by decide, by decide, fun _ => rfl⟩

/-- The direction bit of a word, read and encoded again (R72). -/
theorem decodeDirection_code_toNat (w : Word) : (decodeDirection w).code.toNat = w.toNat / 2 ^ 27 % 2 := by
  rw [decodeDirection, ← dirField_toNat]
  rcases BitVec.eq_zero_or_eq_one (dirField w) with h | h <;> simp [h, Direction.code]

/-- A word whose `op` is EDGE's, by the duration bits above the duration width (R72, R75). -/
theorem decode_of_op_edge (dw : Nat) {w : Word} (hop : w.toNat / 2 ^ 28 = 1) : decode dw w =
    if dw < 27 ∧ w.toNat % 2 ^ 27 / 2 ^ dw ≠ 0 then .illegal .edgeDurationTooWide
    else .event (.edge (decodeDirection w) (w.toNat % 2 ^ 27)) := by
  have hfield : opField w = 0x1#4 := (opField_eq_iff w 1 (by norm_num)).2 hop
  simp only [decode, hfield, if_true, ne_eq, durField_shift_eq_zero_iff, durField_toNat]

/-- A word whose `op` is that of an event without an operand, by its operand bits (R73, R75). -/
theorem decode_of_op_plain (dw : Nat) {w : Word} {i : Instr} (hi : i ∈ plainEvents)
    (hop : w.toNat / 2 ^ 28 = i.opcode.toNat) : decode dw w =
    if w.toNat % 2 ^ 28 = 0 then .event i else .illegal .nonZeroOperand := by
  have hfield : opField w = i.opcode := by rw [← BitVec.toNat_inj, opField_toNat, hop]
  have hdec : decode dw w = decodeNoOperand w i := by
    simp only [plainEvents, List.mem_cons, List.not_mem_nil, or_false] at hi
    rcases hi with rfl | rfl | rfl | rfl <;> simp [decode, hfield, Instr.opcode]
  simp only [hdec, decodeNoOperand, ne_eq, operandField_eq_zero_iff, ite_not]

/-- A word whose `op` is no event's (R74). -/
theorem decode_of_op_reserved (dw : Nat) {w : Word} (hop : w.toNat / 2 ^ 28 = 0 ∨ 6 ≤ w.toNat / 2 ^ 28) :
    decode dw w = .illegal .reservedOp := by
  have hne : ∀ k, 1 ≤ k → k ≤ 5 → opField w ≠ BitVec.ofNat 4 k := fun k h1 h5 => by
    rw [ne_eq, opField_eq_iff w k (by omega)]
    omega
  simp [decode, hne 1, hne 2, hne 3, hne 4, hne 5]

/-- The five answers of the decoder and the ground of each, on the word as a number (R74, R75). -/
theorem decode_cases (dw : Nat) (w : Word) :
    ((w.toNat / 2 ^ 28 = 0 ∨ 6 ≤ w.toNat / 2 ^ 28) ∧ decode dw w = .illegal .reservedOp) ∨
    (w.toNat / 2 ^ 28 = 1 ∧ (dw < 27 ∧ w.toNat % 2 ^ 27 / 2 ^ dw ≠ 0) ∧ decode dw w = .illegal .edgeDurationTooWide) ∨
    (w.toNat / 2 ^ 28 = 1 ∧ ¬ (dw < 27 ∧ w.toNat % 2 ^ 27 / 2 ^ dw ≠ 0) ∧
      decode dw w = .event (.edge (decodeDirection w) (w.toNat % 2 ^ 27))) ∨
    (∃ i ∈ plainEvents, w.toNat / 2 ^ 28 = i.opcode.toNat ∧ w.toNat % 2 ^ 28 ≠ 0 ∧
      decode dw w = .illegal .nonZeroOperand) ∨
    (∃ i ∈ plainEvents, w.toNat / 2 ^ 28 = i.opcode.toNat ∧ w.toNat % 2 ^ 28 = 0 ∧ decode dw w = .event i) := by
  have hplain : 2 ≤ w.toNat / 2 ^ 28 → w.toNat / 2 ^ 28 ≤ 5 → ∃ i ∈ plainEvents, w.toNat / 2 ^ 28 = i.opcode.toNat := by
    intro h2 h5
    interval_cases w.toNat / 2 ^ 28 <;> decide
  by_cases hres : w.toNat / 2 ^ 28 = 0 ∨ 6 ≤ w.toNat / 2 ^ 28
  · exact .inl ⟨hres, decode_of_op_reserved dw hres⟩
  refine .inr ?_
  by_cases hedge : w.toNat / 2 ^ 28 = 1
  · by_cases hwide : dw < 27 ∧ w.toNat % 2 ^ 27 / 2 ^ dw ≠ 0
    · exact .inl ⟨hedge, hwide, by rw [decode_of_op_edge dw hedge, if_pos hwide]⟩
    · exact .inr (.inl ⟨hedge, hwide, by rw [decode_of_op_edge dw hedge, if_neg hwide]⟩)
  obtain ⟨i, hi, hop⟩ := hplain (by omega) (by omega)
  refine .inr (.inr ?_)
  by_cases hzero : w.toNat % 2 ^ 28 = 0
  · exact .inr ⟨i, hi, hop, hzero, by rw [decode_of_op_plain dw hi hop, if_pos hzero]⟩
  · exact .inl ⟨i, hi, hop, hzero, by rw [decode_of_op_plain dw hi hop, if_neg hzero]⟩

/-- Settles O2: the word's fields are the event's. -/
theorem decodeOfEncode : Obligations.DecodeOfEncode :=
  fun _ _ hdw hi => decode_encode hdw hi

/-- A duration field with no bit above the duration width is below `2^DW` (R72), and so is any at `DW >= 27`. -/
theorem lt_two_pow_of_fits {dw d : Nat} (hd : d < 2 ^ 27) (hfit : ¬ (dw < 27 ∧ d / 2 ^ dw ≠ 0)) : d < 2 ^ dw := by
  by_cases hdw : dw < 27
  · have hdiv : d / 2 ^ dw = 0 := not_not.1 fun hne => hfit ⟨hdw, hne⟩
    exact (Nat.div_eq_zero_iff_lt (by positivity)).1 hdiv
  · exact hd.trans_le (Nat.pow_le_pow_right two_pos (by omega))

/-- Settles O3: a word that decodes to an EDGE holds nothing but the operation code, the direction and the duration, and one that
decodes to another event nothing but the operation code. -/
theorem encodeOfDecode : Obligations.EncodeOfDecode := by
  intro dw w i hdec
  rcases decode_cases dw w with ⟨-, h⟩ | ⟨-, -, h⟩ | ⟨hop, hfit, h⟩ | ⟨j, -, -, -, h⟩ | ⟨j, hj, hop, hzero, h⟩
  · simp [h] at hdec
  · simp [h] at hdec
  · obtain rfl : Instr.edge (decodeDirection w) (w.toNat % 2 ^ 27) = i := by simpa [h] using hdec
    constructor
    · rw [← BitVec.toNat_inj, encode_edge_toNat, decodeDirection_code_toNat]
      omega
    · simpa [Instr.wellFormed] using lt_two_pow_of_fits (Nat.mod_lt _ (by positivity)) hfit
  · simp [h] at hdec
  · obtain rfl : j = i := by simpa [h] using hdec
    obtain ⟨-, -, hword, hwf⟩ := plainEvents_facts hj
    refine ⟨?_, hwf dw⟩
    rw [← BitVec.toNat_inj, hword]
    omega

/-- A step on an illegal word is refused with the decoder's reason (R74). -/
theorem step_of_illegal_word {s : State} {w : Word} {rest : List Transaction} {r : IllegalReason} (hl : s.cfg.legal = true)
    (hi : s.inputs = presentWord w :: rest) (hdec : decode s.cfg.dw w = .illegal r) : step s = .refused (.illegalWord r) := by
  rw [step, deliver_of_cons hl hi]
  simp [deliverTransaction, presentWord, deliverWord, hdec]

/-- Settles O4: the grounds of the decoder's answers exclude one another, so each answer has its ground alone. -/
theorem illegalWordsAreRefused : Obligations.IllegalWordsAreRefused := by
  refine ⟨fun dw w => ?_, fun s w rest r hl hi hdec => step_of_illegal_word hl hi hdec⟩
  rcases decode_cases dw w with ⟨hop, h⟩ | ⟨hop, hwide, h⟩ | ⟨hop, hfit, h⟩ | ⟨j, hj, hop, hne, h⟩ | ⟨j, hj, hop, hzero, h⟩
  · simp only [h, Decoded.illegal.injEq, reduceCtorEq, true_iff, false_iff]
    omega
  · simp only [h, Decoded.illegal.injEq, reduceCtorEq, true_iff, false_iff]
    refine ⟨by omega, ⟨hop, hwide⟩, by omega⟩
  · simp only [h, reduceCtorEq, false_iff]
    refine ⟨by omega, fun hn => hfit hn.2, by omega⟩
  · have hfacts := plainEvents_facts hj
    simp only [h, Decoded.illegal.injEq, reduceCtorEq, true_iff, false_iff]
    omega
  · have hfacts := plainEvents_facts hj
    simp only [h, reduceCtorEq, false_iff]
    omega

/-- Settles O1: the words of the table are decoded; of the word with all duration bits set, the event is well formed at
`DW = 27` alone. -/
theorem workedEncodingsDecode : Obligations.WorkedEncodingsDecode := by
  refine ⟨fun dw hdw => ?_, fun dw _ hdw => ⟨fun hdec => ?_, fun h => ?_⟩, by decide⟩
  · rcases hdw with rfl | rfl <;> decide
  · have hwf : 2 ^ 27 - 1 < 2 ^ dw := by simpa [Instr.wellFormed] using (encodeOfDecode _ _ _ hdec).2
    by_contra hne
    have hle : 2 ^ dw ≤ 2 ^ 26 := Nat.pow_le_pow_right two_pos (by omega)
    omega
  · subst h
    decide

/-! ### ROMs and responses -/

/-- Settles O14: the cell of each last bit and pulse, of which one depends on `FZS`. -/
theorem romsHoldTheTables : Obligations.RomsHoldTheTables := by
  refine ⟨fun c dir last p => ?_, fun _ => rfl, fun c h => ?_, fun c h => ?_, rfl, rfl, rfl, rfl⟩
  · cases dir with
    | rising => cases last <;> cases p <;> rfl
    | falling => cases last <;> cases p <;> rfl
  · simp [rom, fallRom, h, fzsSymbol, BitSymbol.code]
  · simp [rom, fallRom, h, fzsSymbol, BitSymbol.code]

/-- Settles O36: a TAKE adds its response, any other event none. -/
theorem onlyTakeResponds : Obligations.OnlyTakeResponds := by
  refine ⟨fun i s => (goes_iff i s _).2 ?_, fun _ => rfl, rfl⟩
  by_cases hi : i = .take
  · subst hi
    simp [execNext_take_outs]
  · simp [hi, execNext_outs i s hi]

/-! ### Tokens -/

/-- Text of one token, in lower case. -/
structure IsToken (tok : List Char) : Prop where
  /-- It is no empty text. -/
  ne_nil : tok ≠ []
  /-- No character ends a token. -/
  no_end : ∀ c ∈ tok, isBlank c = false ∧ c ≠ ','
  /-- No comment begins in it. -/
  no_comment : ';' ∉ tok
  /-- It is in lower case. -/
  lower : tok.map Char.toLower = tok

/-- A line's tokens depend on the lower case of its first letters alone, if no comment begins in them. -/
theorem tokens_append_of_no_comment {l : List Char} (rest : List Char) (h : ';' ∉ l) :
    tokens (l ++ rest) = tokensFrom [] (l.map Char.toLower ++ (stripComment rest).map Char.toLower) := by
  rw [tokens, stripComment_append l rest fun c hc hsemi => h (hsemi ▸ hc), List.map_append]

/-- Text without a `;` is kept whole. -/
theorem stripComment_of_no_comment {l : List Char} (h : ';' ∉ l) : stripComment l = l := by
  simpa [stripComment] using stripComment_append l [] fun c hc hsemi => h (hsemi ▸ hc)

/-- A token at the end of a line is read as it stands. -/
theorem tokens_append_token {l tok : List Char} (h : ';' ∉ l) (htok : IsToken tok) :
    tokens (l ++ tok) = tokensFrom [] (l.map Char.toLower ++ tok) := by
  rw [tokens_append_of_no_comment tok h, stripComment_of_no_comment htok.no_comment, htok.lower]

/-- A token alone is read as itself. -/
theorem IsToken.tokensFrom_nil {tok : List Char} (htok : IsToken tok) : tokensFrom [] tok = [tok] := by
  rw [tokensFrom_word tok [] htok.no_end, List.nil_append]
  cases tok with
  | nil => exact absurd rfl htok.ne_nil
  | cons c cs => rfl

/-- The tokens before the number of an EDGE line (R79). -/
def edgeHeadTokens : Direction → List (List Char)
  | .rising => ["edge".toList, ['r'], [',']]
  | .falling => ["edge".toList, ['f'], [',']]

/-- The token before the number of a pseudo-event (R80). -/
def pseudoHeadTokens : Direction → List (List Char)
  | .rising => ["rise".toList]
  | .falling => ["fall".toList]

/-- The tokens of an EDGE line: its head's and the number. -/
theorem tokens_edgeHead (dir : Direction) {num : List Char} (hnum : IsToken num) :
    tokens (edgeHead dir ++ num) = edgeHeadTokens dir ++ [num] := by
  rw [tokens_append_token (by cases dir <;> decide) hnum, ← hnum.tokensFrom_nil]
  cases dir <;> rfl

/-- The tokens of a pseudo-event with a number. -/
theorem tokens_pseudoHead (dir : Direction) {num : List Char} (hnum : IsToken num) :
    tokens (pseudoHead dir ++ num) = pseudoHeadTokens dir ++ [num] := by
  rw [tokens_append_token (by cases dir <;> decide) hnum, ← hnum.tokensFrom_nil]
  cases dir <;> rfl

/-- An EDGE line is read as its direction and its number (R79). -/
theorem parseTokens_edgeHead (c : Config) (dir : Direction) {num : List Char} (hnum : IsToken num) :
    parseTokens c (tokens (edgeHead dir ++ num)) = edgeLine dir num := by
  rw [tokens_edgeHead dir hnum]
  cases dir <;> rfl

/-- A pseudo-event with a duration is read as its direction and its number (R80). -/
theorem parseTokens_pseudoHead (c : Config) (dir : Direction) {num : List Char} (hnum : IsToken num) :
    parseTokens c (tokens (pseudoHead dir ++ num)) = edgeLine dir num := by
  rw [tokens_pseudoHead dir hnum]
  cases dir <;> rfl

/-- A line that says an event assembles as the event's word, or is refused for its duration (R72, R79). -/
theorem assembleLine_of_event {c : Config} {line : List Char} {i : Instr} (h : parseTokens c (tokens line) = .event i) :
    assembleLine c line = if i.wellFormed c.dw then .word (encode i) else .error .durationTooWide := by
  rw [assembleLine, h]

/-- What a line assembles to depends on what its tokens say alone. -/
theorem assembleLine_congr {c : Config} {line line' : List Char}
    (h : parseTokens c (tokens line) = parseTokens c (tokens line')) : assembleLine c line = assembleLine c line' := by
  rw [assembleLine, assembleLine, h]

/-! ### Numbers -/

/-- The characters of a form's marker end no token, begin no comment and are in lower case. -/
theorem marker_facts (f : NumberForm) {c : Char} (hc : c ∈ f.marker) :
    isBlank c = false ∧ c ≠ ',' ∧ c ≠ ';' ∧ c.toLower = c := by
  have hsub : f.marker ⊆ ['0', 'x', 'b'] := by cases f <;> decide
  have hmem := hsub hc
  simp only [List.mem_cons, List.not_mem_nil, or_false] at hmem
  rcases hmem with rfl | rfl | rfl <;> decide

/-- The characters of a number, of its marker and of its digits. -/
theorem text_facts (f : NumberForm) {ds : List Nat} (hds : ∀ v ∈ ds, v < f.base) {c : Char} (hc : c ∈ f.text ds) :
    isBlank c = false ∧ c ≠ ',' ∧ c ≠ ';' ∧ c.toLower = c := by
  have hbase : f.base ≤ 16 := by cases f <;> decide
  rcases List.mem_append.1 hc with hmarker | hdigits
  · exact marker_facts f hmarker
  · obtain ⟨v, hv, rfl⟩ := List.mem_map.1 hdigits
    obtain ⟨-, hblank, hcomma, hsemi, hlow, -⟩ := digitChar_facts v ((hds v hv).trans_le hbase)
    exact ⟨hblank, hcomma, hsemi, hlow⟩

/-- A number as text is one token (R79). -/
theorem isToken_text (f : NumberForm) {ds : List Nat} (hne : ds ≠ []) (hds : ∀ v ∈ ds, v < f.base) :
    IsToken (f.text ds) where
  ne_nil := by simp [NumberForm.text, hne]
  no_end c hc := by
    obtain ⟨hblank, hcomma, -⟩ := text_facts f hds hc
    exact ⟨hblank, hcomma⟩
  no_comment hc := by
    obtain ⟨-, -, hsemi, -⟩ := text_facts f hds hc
    exact hsemi rfl
  lower := by
    have hlow : ∀ c ∈ f.text ds, c.toLower = id c := fun c hc => by
      obtain ⟨-, -, -, hlow⟩ := text_facts f hds hc
      exact hlow
    rw [List.map_congr_left hlow, List.map_id]

/-- One digit or more, below the base, are read as the number they stand for. -/
theorem parseDigits1_digits {base : Nat} (hbase : base ≤ 16) {ds : List Nat} (hne : ds ≠ []) (hds : ∀ v ∈ ds, v < base) :
    parseDigits1 base (ds.map digitChar) = some (ds.foldl (fun n v => base * n + v) 0) := by
  rw [← parseDigits_digits base hbase ds hds 0]
  cases ds with
  | nil => exact absurd rfl hne
  | cons v ds => rfl

/-- Decimal digits are not taken for a marked number: none of their characters is an `x` or a `b`. -/
theorem parseNumber_decimal {ds : List Nat} (hds : ∀ v ∈ ds, v < 10) :
    parseNumber (ds.map digitChar) = parseDigits1 10 (ds.map digitChar) := by
  have hletters : ∀ c ∈ ds.map digitChar, c ≠ 'x' ∧ c ≠ 'b' := fun c hc => by
    obtain ⟨v, hv, rfl⟩ := List.mem_map.1 hc
    obtain ⟨-, -, -, -, -, hx, hb⟩ := digitChar_facts v ((hds v hv).trans (by norm_num))
    exact ⟨hx, hb (hds v hv)⟩
  unfold parseNumber
  split
  case h_1 rest heq => exact absurd rfl (hletters 'x' (by simp [heq])).1
  case h_2 rest heq => exact absurd rfl (hletters 'b' (by simp [heq])).2
  case h_3 => rfl

/-- A number's text is read as the number its digits stand for, in each form (R79). -/
theorem parseNumber_text (f : NumberForm) {ds : List Nat} (hne : ds ≠ []) (hds : ∀ v ∈ ds, v < f.base) :
    parseNumber (f.text ds) = some (f.value ds) := by
  cases f with
  | decimal => exact (parseNumber_decimal hds).trans (parseDigits1_digits (by norm_num) hne hds)
  | hexadecimal => exact parseDigits1_digits (by decide) hne hds
  | binary => exact parseDigits1_digits (by decide) hne hds

/-- An EDGE line assembles as the EDGE of its number (R79, R72). -/
theorem assembleLine_edgeHead_text (c : Config) (dir : Direction) (f : NumberForm) {ds : List Nat} (hne : ds ≠ [])
    (hds : ∀ v ∈ ds, v < f.base) : assembleLine c (edgeHead dir ++ f.text ds) =
      if f.value ds < 2 ^ c.dw then .word (encode (.edge dir (f.value ds))) else .error .durationTooWide := by
  have hparse : parseTokens c (tokens (edgeHead dir ++ f.text ds)) = .event (.edge dir (f.value ds)) := by
    rw [parseTokens_edgeHead c dir (isToken_text f hne hds), edgeLine, parseNumber_text f hne hds]
  simp [assembleLine_of_event hparse, Instr.wellFormed]

/-- A token after a pseudo-event's word is read as it is after the EDGE line's head (R80). -/
theorem assembleLine_pseudoHead (c : Config) (dir : Direction) {num : List Char} (hnum : IsToken num) :
    assembleLine c (pseudoHead dir ++ num) = assembleLine c (edgeHead dir ++ num) :=
  assembleLine_congr ((parseTokens_pseudoHead c dir hnum).trans (parseTokens_edgeHead c dir hnum).symm)

/-! ### Canonical lines -/

/-- The digits that `decimalFrom` writes stand for its number, where the fuel is enough for them. -/
theorem decimalFrom_eq_digits (fuel n : Nat) (tail : List Char) (hfuel : n < fuel) :
    ∃ ds : List Nat, ds ≠ [] ∧ (∀ v ∈ ds, v < 10) ∧ NumberForm.decimal.value ds = n ∧
      decimalFrom fuel n tail = ds.map digitChar ++ tail := by
  induction fuel generalizing n tail with
  | zero => omega
  | succ fuel ih =>
    by_cases hn : n < 10
    · exact ⟨[n], by simp, by simpa using hn, by simp [NumberForm.value], by simp [decimalFrom, hn]⟩
    · obtain ⟨ds, -, hds, hvalue, htext⟩ := ih (n / 10) (digitChar (n % 10) :: tail) (by omega)
      refine ⟨ds ++ [n % 10], by simp, ?_, ?_, by simp [decimalFrom, hn, htext]⟩
      · simpa [or_imp, forall_and] using ⟨hds, Nat.mod_lt n (by norm_num)⟩
      · have hlast : NumberForm.decimal.value (ds ++ [n % 10]) = 10 * NumberForm.decimal.value ds + n % 10 := by
          simp [NumberForm.value, NumberForm.base]
        omega

/-- The decimal of a number is one of its texts (R79). -/
theorem decimal_eq_text (n : Nat) : ∃ ds : List Nat, ds ≠ [] ∧ (∀ v ∈ ds, v < NumberForm.decimal.base) ∧
    NumberForm.decimal.value ds = n ∧ decimal n = NumberForm.decimal.text ds := by
  obtain ⟨ds, hne, hds, hvalue, htext⟩ := decimalFrom_eq_digits (n + 1) n [] (by omega)
  exact ⟨ds, hne, hds, hvalue, htext.trans (List.append_nil _)⟩

/-- A number in decimal is one token. -/
theorem isToken_decimal (n : Nat) : IsToken (decimal n) := by
  obtain ⟨ds, hne, hds, -, htext⟩ := decimal_eq_text n
  rw [htext]
  exact isToken_text .decimal hne hds

/-- Settles O5: an EDGE line is one of the lines with a number's text, the others are read word by word. -/
theorem canonicalLinesAssemble : Obligations.CanonicalLinesAssemble := by
  intro c i
  cases i with
  | edge dir d =>
    obtain ⟨ds, hne, hds, hvalue, htext⟩ := decimal_eq_text d
    have hline := assembleLine_edgeHead_text c dir .decimal hne hds
    rw [← htext, hvalue] at hline
    change assembleLine c (edgeHead dir ++ decimal d) = _
    simpa only [Instr.wellFormed, decide_eq_true_eq] using hline
  | timeout => exact assembleLine_of_event rfl
  | take => exact assembleLine_of_event rfl
  | disable => exact assembleLine_of_event rfl
  | enable => exact assembleLine_of_event rfl

/-- Settles O12: a pseudo-event without a number says the EDGE of the configured period, as the canonical line does. -/
theorem pseudoEvents : Obligations.PseudoEvents := by
  refine ⟨classify_periods, fun c => ?_, fun c d => ?_⟩
  · simp only [canonicalLinesAssemble c]
    exact ⟨assembleLine_of_event rfl, assembleLine_of_event rfl, assembleLine_of_event rfl, assembleLine_of_event rfl⟩
  · exact ⟨assembleLine_pseudoHead c .rising (isToken_decimal d), assembleLine_pseudoHead c .falling (isToken_decimal d)⟩

/-! ### Letter case and comments -/

/-- A comment is not read (R79). -/
theorem stripComment_comment (line comment : List Char) : stripComment (line ++ ';' :: comment) = stripComment line := by
  induction line with
  | nil => rfl
  | cons c line ih => simp [stripComment, ih]

/-- The mnemonics hold no `;` and are in lower case. -/
theorem mnemonics_facts : ∀ m ∈ mnemonics, ';' ∉ m ∧ m.map Char.toLower = m := by decide

/-- A mnemonic is read in any letter case, whatever follows it (R79): a `;` in it would stay one in lower case. -/
theorem tokens_mnemonic {m m' : List Char} (rest : List Char) (hm : m ∈ mnemonics) (hcase : m'.map Char.toLower = m) :
    tokens (m' ++ rest) = tokens (m ++ rest) := by
  obtain ⟨hsemi, hlow⟩ := mnemonics_facts m hm
  have hsemi' : ';' ∉ m' := fun h => hsemi (hcase ▸ List.mem_map_of_mem (f := Char.toLower) h)
  rw [tokens_append_of_no_comment rest hsemi', tokens_append_of_no_comment rest hsemi, hcase, hlow]

/-- Settles O60: the number forms from the lemmas on a number's text; letter case and comments are gone with the tokens. -/
theorem lineFormsAssemble : Obligations.LineFormsAssemble := by
  refine ⟨fun c dir f ds hne hds => ?_, fun c m m' rest hm hcase => ?_, fun c line comment => ?_⟩
  · exact ⟨assembleLine_edgeHead_text c dir f hne hds, assembleLine_pseudoHead c dir (isToken_text f hne hds)⟩
  · exact assembleLine_congr (by rw [tokens_mnemonic rest hm hcase])
  · exact assembleLine_congr (by rw [tokens, tokens, stripComment_comment])

end Sys2Proof.Machine

/-! PROOFS for the family of 40_datapath.md: CLASSIFY (R90 to R93), RESOLVE (R94 to R97), COMMIT and whole frames (R98 to R101),
runs of edges, and RESET_TO_IDLE (R104). -/

namespace Sys2Proof.Machine

open Sys2Proof

/-! ### CLASSIFY by its windows -/

/-- Outside a window, in arithmetic: below it, above it, or on an upper bound that is not inclusive (R91, R92). -/
theorem inWindow_eq_false_iff (c : Config) (lo hi d : Nat) :
    inWindow c lo hi d = false ↔ d < lo ∨ hi < d ∨ c.upperInclusive = false ∧ d = hi := by
  rw [← Bool.not_eq_true, inWindow_iff]
  cases c.upperInclusive
  · simp
    omega
  · simp
    omega

/-- Off the upper bound a window does not read `UPPER_INCLUSIVE` (R92). -/
theorem inWindow_of_ne_upper (c : Config) {lo hi d : Nat} (h : d ≠ hi) :
    inWindow c lo hi d = (decide (lo ≤ d) && decide (d < hi)) := by
  simp [inWindow, h]

/-- CLASSIFY answers Short exactly in the short window (R90). -/
theorem classify_eq_short_iff (c : Config) (d : Nat) :
    classify c d = .short ↔ inWindow c c.shortMin c.shortMax d = true := by
  rcases classify_cases c d with ⟨hs, h⟩ | ⟨hs, -, h⟩ | ⟨hs, -, h⟩
  · simp [hs, h]
  · simp [hs, h]
  · simp [hs, h]

/-- CLASSIFY answers Long exactly in the long window, outside the short one (R90). -/
theorem classify_eq_long_iff (c : Config) (d : Nat) : classify c d = .long ↔
    ¬ inWindow c c.shortMin c.shortMax d = true ∧ inWindow c c.longMin c.longMax d = true := by
  rcases classify_cases c d with ⟨hs, h⟩ | ⟨hs, hl, h⟩ | ⟨hs, hl, h⟩
  · simp [hs, h]
  · simp [hs, hl, h]
  · simp [hs, hl, h]

/-- With a legal configuration the long window alone decides Long (R28). -/
theorem classify_eq_long_iff_of_legal (c : Config) (d : Nat) (hl : c.legal = true) :
    classify c d = .long ↔ inWindow c c.longMin c.longMax d = true := by
  rw [classify_eq_long_iff]
  exact ⟨And.right, fun hlong => ⟨fun hshort => windows_disjoint c d hl ⟨hshort, hlong⟩, hlong⟩⟩

/-- The windows of the source's `T` and `tol` (R90 to R92). -/
theorem classify_source {c : Config} (ht : c.t = 900) (htol : c.tol = 270) (d : Nat) :
    classify c d = if inWindow c 630 1170 d then .short else if inWindow c 1530 2070 d then .long else .invalid := by
  simp [classify, Config.shortMin, Config.shortMax, Config.longMin, Config.longMax, ht, htol]

/-- Settles O8: the windows in arithmetic; a class that is neither Short nor Long is Invalid. -/
theorem classifyByWindows : Obligations.ClassifyByWindows := by
  refine ⟨fun c d => ⟨?_, ?_, ?_⟩, fun c ht htol => ?_⟩
  · rw [classify_eq_short_iff, inWindow_iff]
  · rw [classify_eq_long_iff, inWindow_iff, inWindow_iff]
  · cases classify c d <;> simp
  · simp [classify_source ht htol, inWindow]

/-- The bounds of a legal configuration's windows, in their order (R28). -/
theorem window_order (c : Config) (hl : c.legal = true) :
    0 < c.shortMin ∧ c.shortMin < c.shortMax ∧ c.shortMax < c.longMin ∧ c.longMin < c.longMax := by
  obtain ⟨htol, ht, -⟩ := legal_bounds c hl
  obtain ⟨⟨hshort, hmid, hlong, -⟩, -⟩ := (legal_iff_windows c).1 hl
  exact ⟨by unfold Config.shortMin; omega, hshort, hmid, hlong⟩

/-- CLASSIFY on the two bounds of each window of a legal configuration (R91, R92). -/
theorem classify_bounds (c : Config) (hl : c.legal = true) :
    classify c c.shortMin = .short ∧ classify c c.longMin = .long ∧
    classify c c.shortMax = (if c.upperInclusive then .short else .invalid) ∧
    classify c c.longMax = (if c.upperInclusive then .long else .invalid) := by
  obtain ⟨-, hshort, hmid, hlong⟩ := window_order c hl
  refine ⟨?_, ?_, ?_, ?_⟩
  · rw [classify_eq_short_iff, inWindow_iff]
    omega
  · rw [classify_eq_long_iff_of_legal c _ hl, inWindow_iff]
    omega
  · cases hu : c.upperInclusive with
    | true => exact (classify_eq_short_iff c _).2 ((inWindow_iff c _ _ _).2 ⟨hshort.le, .inr ⟨hu, rfl⟩⟩)
    | false => exact (classify_gap_iff c _ le_rfl hmid hshort).2 (by simp [hu])
  · cases hu : c.upperInclusive with
    | true => exact (classify_eq_long_iff_of_legal c _ hl).2 ((inWindow_iff c _ _ _).2 ⟨hlong.le, .inr ⟨hu, rfl⟩⟩)
    | false =>
      refine (classify_eq_invalid_iff c _).2 ⟨?_, ?_⟩
      · exact (inWindow_eq_false_iff c _ _ _).2 (.inr (.inl (by omega)))
      · exact (inWindow_eq_false_iff c _ _ _).2 (.inr (.inr ⟨hu, rfl⟩))

/-- Off both upper bounds CLASSIFY does not read `UPPER_INCLUSIVE` (R92). -/
theorem classify_of_ne_upper (c : Config) (d : Nat) (u : Bool) (hs : d ≠ c.shortMax) (hl : d ≠ c.longMax) :
    classify { c with upperInclusive := u } d = classify c d := by
  have hshort : inWindow { c with upperInclusive := u } c.shortMin c.shortMax d = inWindow c c.shortMin c.shortMax d := by
    rw [inWindow_of_ne_upper _ hs, inWindow_of_ne_upper _ hs]
  have hlong : inWindow { c with upperInclusive := u } c.longMin c.longMax d = inWindow c c.longMin c.longMax d := by
    rw [inWindow_of_ne_upper _ hl, inWindow_of_ne_upper _ hl]
  unfold classify
  rw [← hshort, ← hlong]
  rfl

/-- Settles O9: the bounds from the order of the windows, the source's values from its windows written out. -/
theorem windowBounds : Obligations.WindowBounds := by
  refine ⟨classify_bounds, fun c d _ hs hl => ?_, fun c ht htol => ?_⟩
  · rw [classify_of_ne_upper c d true hs hl, classify_of_ne_upper c d false hs hl]
  · simp [classify_source ht htol, inWindow]

/-- Settles O10: each duration named is outside both windows, by the order of their bounds; a duration of `DW` bits is at most
`2^DW - 1`, so below a window that begins above that. -/
theorem classifyCorners : Obligations.ClassifyCorners := by
  intro c hl
  obtain ⟨hpos, hshort, hmid, hlong⟩ := window_order c hl
  obtain ⟨⟨-, -, -, hgap⟩, -⟩ := (legal_iff_windows c).1 hl
  simp only [classify_eq_invalid_iff, inWindow_eq_false_iff] at hgap ⊢
  refine ⟨by omega, fun d hd => by omega, fun d hlo hhi => by omega, fun d hd => by omega, fun hu => ⟨?_, ?_⟩, hgap, ?_, ?_⟩
  · intro d hlo hhi
    simp only [hu, true_and]
    omega
  · intro d hd
    simp only [hu, true_and]
    omega
  · intro hnarrow d hd hlong'
    have hin := (inWindow_iff c _ _ _).1 ((classify_eq_long_iff c d).1 hlong').2
    omega
  · intro hnarrow d hd hshort'
    have hin := (inWindow_iff c _ _ _).1 ((classify_eq_short_iff c d).1 hshort')
    omega

/-! ### RESOLVE by its tables -/

@[simp] theorem resolve_rising (c : Config) (last : DataBit) (p : Pulse) : resolve c .rising last p = riseTable last p := rfl

@[simp] theorem resolve_falling (c : Config) (last : DataBit) (p : Pulse) :
    resolve c .falling last p = fallTable c.fzs last p := rfl

/-- Settles O13: each cell read off its table; the cell `(Zero, Short)` of FALL is the parameter. -/
theorem resolveResults : Obligations.ResolveResults := by
  intro c hf
  simp [hf, riseTable, fallTable, fzsSymbol]

/-- The only bit that an edge of a direction can commit (R97). -/
def bitOfDirection : Direction → DataBit
  | .rising => .zero
  | .falling => .one

/-- RISE holds no One (R30, R97). -/
theorem riseTable_ne_one (last : DataBit) (p : Pulse) : riseTable last p ≠ .one := by
  cases last <;> cases p <;> simp [riseTable]

/-- FALL holds no Zero, whatever its cell `(Zero, Short)` is (R31, R97). -/
theorem fallTable_ne_zero (f : FallZeroShort) (last : DataBit) (p : Pulse) : fallTable f last p ≠ .zero := by
  cases f <;> cases last <;> cases p <;> simp [fallTable, fzsSymbol]

/-- A resolution to a bit is to the bit of the direction (R97). -/
theorem eq_bitOfDirection_of_resolve {c : Config} {dir : Direction} {last : DataBit} {p : Pulse} {b : DataBit}
    (h : resolve c dir last p = b.toSymbol) : b = bitOfDirection dir := by
  cases dir with
  | rising =>
    cases b with
    | zero => rfl
    | one => exact absurd h (riseTable_ne_one last p)
  | falling =>
    cases b with
    | zero => exact absurd h (fallTable_ne_zero c.fzs last p)
    | one => rfl

/-- A Long pulse never resolves to no bit (R96). -/
theorem resolve_long_ne_noBit (c : Config) (dir : Direction) (last : DataBit) : resolve c dir last .long ≠ .noBit := by
  cases dir <;> cases last <;> simp [riseTable, fallTable]

/-- With `FZS = Invalid` a Falling edge after a Zero that resolves to anything valid resolves to a One (R96). -/
theorem resolve_falling_zero (c : Config) (hf : c.fzs = .invalid) (p : Pulse) :
    resolve c .falling .zero p = .invalid ∨ resolve c .falling .zero p = .one := by
  cases p <;> simp [hf, fallTable, fzsSymbol]

/-! ### COMMIT in arithmetic -/

/-- COMMIT on its domain (R98, R99). -/
theorem commit_eq (s : State) (b : DataBit) (hpos : 1 ≤ s.rem) (hle : s.rem ≤ s.cfg.w - 1) :
    s.commit b = (if s.rem = 1 then .complete else .inProgress,
      { s with acc := (2 * s.acc + b.val) % 2 ^ s.cfg.w, rem := s.rem - 1 }) := by
  have hdec := decRem_eq s.cfg s.rem hpos (lt_two_pow_rw _ _ hle)
  have hlast : s.rem - 1 = 0 ↔ s.rem = 1 := by omega
  simp only [State.commit, hdec, shiftIn_eq, hlast]

/-- Settles O15: the equation, and what it gives on the worked example. -/
theorem commitShiftsAndCounts : Obligations.CommitShiftsAndCounts := by
  refine ⟨fun s b _ hpos hle => commit_eq s b hpos hle, fun s hw hacc hrem => ?_⟩
  rw [commit_eq s .one (by omega) (by omega), hw, hacc, hrem]
  rfl

/-- COMMIT loses no bit of a frame in progress: the bits so far and one more fit the accumulator (R101). -/
theorem commit_eq_of_bound (s : State) (b : DataBit) (hpos : 1 ≤ s.rem) (hle : s.rem ≤ s.cfg.w - 1)
    (hacc : s.acc < 2 ^ (s.cfg.w - 1 - s.rem)) :
    s.commit b = (if s.rem = 1 then .complete else .inProgress, { s with acc := 2 * s.acc + b.val, rem := s.rem - 1 }) ∧
    2 * s.acc + b.val < 2 ^ (s.cfg.w - 1 - (s.rem - 1)) := by
  have hbound : 2 * s.acc + b.val < 2 ^ (s.cfg.w - 1 - (s.rem - 1)) := by
    have hexp : s.cfg.w - 1 - (s.rem - 1) = s.cfg.w - 1 - s.rem + 1 := by omega
    have hval := val_lt_two b
    rw [hexp, pow_succ]
    omega
  have hwidth : 2 ^ (s.cfg.w - 1 - (s.rem - 1)) ≤ 2 ^ s.cfg.w := Nat.pow_le_pow_right two_pos (by omega)
  exact ⟨by rw [commit_eq s b hpos hle, Nat.mod_eq_of_lt (hbound.trans_le hwidth)], hbound⟩

/-! ### Commits one after another -/

/-- Committing bits to a frame in progress, no more than slots are left, continues the accumulator by them (R100, R101). -/
theorem commitAll_eq (bs : List DataBit) (s : State) (hne : bs ≠ []) (hlen : bs.length ≤ s.rem) (hle : s.rem ≤ s.cfg.w - 1)
    (hacc : s.acc < 2 ^ (s.cfg.w - 1 - s.rem)) :
    commitAll bs s = (if bs.length = s.rem then .complete else .inProgress,
      { s with acc := bs.foldl (fun a b => 2 * a + b.val) s.acc, rem := s.rem - bs.length }) := by
  induction bs generalizing s with
  | nil => exact absurd rfl hne
  | cons b bs ih =>
    rw [List.length_cons] at hlen ⊢
    obtain ⟨hcommit, hbound⟩ := commit_eq_of_bound s b (by omega) hle hacc
    cases bs with
    | nil => simp [commitAll, hcommit, eq_comm]
    | cons b' bs =>
      have hcount : (b' :: bs).length = s.rem - 1 ↔ (b' :: bs).length + 1 = s.rem := by omega
      rw [commitAll, hcommit, ih _ (by simp) (by simp only; omega) (by simp only; omega) hbound]
      · simp only [hcount, List.foldl_cons, Nat.sub_sub, Nat.add_comm]
      · simp

/-- `k` bits have a value of `k` bits (R21). -/
theorem frameValue_lt (bs : List DataBit) : frameValue bs < 2 ^ bs.length := by
  induction bs using List.reverseRecOn with
  | nil => simp [frameValue]
  | append_singleton bs b ih =>
    have hval := val_lt_two b
    rw [frameValue_append_singleton, List.length_append, List.length_singleton, pow_succ]
    omega

/-- Settles O16: the commits from the empty accumulator; the value of at most `W - 1` bits has no bit `W - 1`. -/
theorem frameCompletesAtLastBit : Obligations.FrameCompletesAtLastBit := by
  intro s bs _ hacc hrem hne hlen
  refine ⟨?_, frameValue_lt bs, testBit_frameValue_of_length_le hlen⟩
  rw [commitAll_eq bs s hne (by omega) (by omega) (by simp [hacc]), hacc, hrem, frameValue]

/-! ### EDGE on a frame in progress -/

/-- Settles O29: the branches of EDGE down to the commit, and the commit in arithmetic. -/
theorem edgeCommitsABit : Obligations.EdgeCommitsABit := by
  intro s dir d p b _ hen hr hp hs herr hpos hle hres
  have hdec := decRem_eq s.cfg s.rem hpos (lt_two_pow_rw _ _ hle)
  have hlast : s.rem - 1 = 0 ↔ s.rem = 1 := by omega
  rw [exec_edge, edgeNext_of_valid hen hr hp, edgeValid_of_synced hs herr, hres, edgeResolved_toSymbol, edgeBit_eq, hdec,
    shiftIn_eq, hr]
  simp [hlast]

/-- The view Accumulating, by the flags (R33). -/
theorem view_eq_accumulating_iff (s : State) :
    s.view = .accumulating ↔ s.sync = true ∧ s.ready = false ∧ s.err = false := by
  unfold State.view
  cases s.sync <;> cases s.ready <;> cases s.err <;> simp

/-- What an EDGE does to a frame in progress: it resets the block, latches the error, changes nothing, or commits the bit of its
direction; if it changes nothing its pulse is no Long one (R97, R123, R126 to R128). -/
theorem edgeNext_accumulating_cases {s : State} (hen : s.en = true) (hv : s.view = .accumulating)
    (dir : Direction) (d : Nat) :
    edgeNext dir d s = s.resetToIdle.logCause .timingOutOfRange ∨ edgeNext dir d s = s.setErr true ∨
    (edgeNext dir d s = s ∧ classify s.cfg d ≠ .long) ∨
    edgeNext dir d s = edgeBit (bitOfDirection dir) s := by
  obtain ⟨hs, hr, herr⟩ := (view_eq_accumulating_iff s).1 hv
  cases hp : (classify s.cfg d).pulse with
  | none => exact .inl (edgeNext_of_invalid hen hr ((pulse_eq_none_iff _).1 hp))
  | some p =>
    have hnext : edgeNext dir d s = edgeResolved (resolve s.cfg dir s.last p) s :=
      (edgeNext_of_valid hen hr hp).trans (edgeValid_of_synced hs herr)
    have hbit : ∀ b : DataBit, resolve s.cfg dir s.last p = b.toSymbol →
        edgeNext dir d s = edgeBit (bitOfDirection dir) s := by
      intro b hres
      rw [hnext, hres, edgeResolved_toSymbol, eq_bitOfDirection_of_resolve hres]
    cases hsym : resolve s.cfg dir s.last p with
    | invalid => exact .inr (.inl (by rw [hnext, hsym]; rfl))
    | noBit =>
      refine .inr (.inr (.inl ⟨by rw [hnext, hsym]; rfl, fun hlong => ?_⟩))
      obtain rfl : p = .long := by cases p <;> simp_all [PulseClass.pulse]
      exact resolve_long_ne_noBit _ _ _ hsym
    | zero => exact .inr (.inr (.inr (hbit .zero hsym)))
    | one => exact .inr (.inr (.inr (hbit .one hsym)))

/-- An edge that counts a bit down has committed the bit of its direction (R97): no other case of an EDGE on a frame in progress
leaves one slot less, for a reset leaves them all. -/
theorem edgeNext_counts_down {s : State} (h : s.Inv) (hen : s.en = true) (hv : s.view = .accumulating) (dir : Direction)
    (d : Nat) (hrem : (edgeNext dir d s).rem = s.rem - 1) :
    (edgeNext dir d s).last = bitOfDirection dir ∧ (edgeNext dir d s).acc = 2 * s.acc + (bitOfDirection dir).val := by
  obtain ⟨hs, hr, -⟩ := (view_eq_accumulating_iff s).1 hv
  obtain ⟨hpos, hle⟩ := h.partial_frame hs hr
  rcases edgeNext_accumulating_cases hen hv dir d with he | he | ⟨he, -⟩ | he
  · rw [he, State.logCause_rem, State.resetToIdle_rem] at hrem
    omega
  · rw [he, State.setErr_rem] at hrem
    omega
  · rw [he] at hrem
    omega
  · rw [he, edgeBit_of_inv h hpos]
    exact ⟨rfl, rfl⟩

/-- An edge of a Long pulse changes a frame in progress: it latches the error or fills a slot (R97). -/
theorem edgeNext_long_ne {s : State} (h : s.Inv) (hen : s.en = true) (hv : s.view = .accumulating) (dir : Direction)
    (d : Nat) (hd : classify s.cfg d = .long) : edgeNext dir d s ≠ s := by
  obtain ⟨hs, hr, herr⟩ := (view_eq_accumulating_iff s).1 hv
  obtain ⟨hpos, -⟩ := h.partial_frame hs hr
  intro hsame
  rcases edgeNext_accumulating_cases hen hv dir d with he | he | ⟨-, hno⟩ | he
  · have hsync := congrArg State.sync (hsame.symm.trans he)
    simp [hs] at hsync
  · have herr' := congrArg State.err (hsame.symm.trans he)
    simp [herr] at herr'
  · exact hno hd
  · have hrem := congrArg State.rem (hsame.symm.trans (he.trans (edgeBit_of_inv h hpos _)))
    simp only at hrem
    omega

/-- Settles O31: both directions from the one lemma on an edge that counts down. -/
theorem directionDecidesTheBit : Obligations.DirectionDecidesTheBit := by
  simp only [Obligations.DirectionDecidesTheBit, goes_iff]
  intro s h hen hv
  exact ⟨fun d => edgeNext_counts_down h hen hv .rising d, fun d => edgeNext_counts_down h hen hv .falling d,
    fun dir d hd => edgeNext_long_ne h hen hv dir d hd⟩

/-! ### Runs of edges, as the tables read them -/

section ReadEdges

variable {c : Config} {last : DataBit} {dir : Direction} {d : Nat} {p : Pulse} {es : List (Direction × Nat)}

theorem readEdges_cons_of_noBit (hp : (classify c d).pulse = some p) (hres : resolve c dir last p = .noBit) :
    readEdges c last ((dir, d) :: es) = readEdges c last es := by
  simp [readEdges, hp, hres]

theorem readEdges_cons_of_bit {b : DataBit} (hp : (classify c d).pulse = some p)
    (hres : resolve c dir last p = b.toSymbol) :
    readEdges c last ((dir, d) :: es) = (readEdges c b es).map (fun bs => b :: bs) := by
  cases b <;> simp [readEdges, hp, hres, DataBit.toSymbol]

/-- The last of some bits after a first one (R23). -/
theorem lastOf_cons (last b : DataBit) (bs : List DataBit) : lastOf last (b :: bs) = lastOf b bs :=
  List.getLastD_cons

/-- The edges after a run that reads as bits are read from the last of these bits on. -/
theorem readEdges_append {bs : List DataBit} (fs : List (Direction × Nat)) (h : readEdges c last es = some bs) :
    readEdges c last (es ++ fs) = (readEdges c (lastOf last bs) fs).map (fun bs' => bs ++ bs') := by
  induction es generalizing last bs with
  | nil =>
    obtain rfl : [] = bs := Option.some.inj h
    simp [lastOf]
  | cons e es ih =>
    obtain ⟨dir, d⟩ := e
    obtain ⟨p, hp, ⟨hres, hrest⟩ | ⟨b, bs', hres, hrest, rfl⟩⟩ := readEdges_cons_eq_some h
    · rw [List.cons_append, readEdges_cons_of_noBit hp hres, ih hrest]
    · rw [List.cons_append, readEdges_cons_of_bit hp hres, ih hrest, lastOf_cons, Option.map_map]
      rfl

/-- A single edge that reads as one bit resolves to it. -/
theorem readEdges_singleton {b : DataBit} (h : readEdges c last [(dir, d)] = some [b]) :
    ∃ p, (classify c d).pulse = some p ∧ resolve c dir last p = b.toSymbol := by
  obtain ⟨p, hp, ⟨-, hrest⟩ | ⟨b', bs', hres, -, hbits⟩⟩ := readEdges_cons_eq_some h
  · simp [readEdges] at hrest
  · obtain ⟨rfl, -⟩ := List.cons.inj hbits
    exact ⟨p, hp, hres⟩

end ReadEdges

/-- The state that the bits `bs`, committed one after another, leave of a frame in progress that they do not fill (R100, R128). -/
def State.afterBits (s : State) (bs : List DataBit) : State :=
  { s with acc := bs.foldl (fun a b => 2 * a + b.val) s.acc, rem := s.rem - bs.length, last := lastOf s.last bs }

/-- A committed bit that leaves a slot (R128). -/
theorem edgeBit_eq_afterBits {s : State} (h : s.Inv) (hpos : 1 < s.rem) (b : DataBit) : edgeBit b s = s.afterBits [b] := by
  rw [edgeBit_of_inv h (by omega) b, if_neg (by omega)]
  rfl

theorem afterBits_cons (s : State) (b : DataBit) (bs : List DataBit) :
    (s.afterBits [b]).afterBits bs = s.afterBits (b :: bs) := by
  simp only [State.afterBits, lastOf_cons, List.length_cons, List.foldl_cons, Nat.sub_sub, Nat.add_comm]
  rfl

/-- A run of edges that the tables read as fewer bits than slots are left leaves what the bits make of the frame, and no other
trace: an edge without a bit changes nothing, and none finds a ready frame. -/
theorem execAll_edges_eq_afterBits (es : List (Direction × Nat)) {s : State} {bs : List DataBit} (h : s.Receiving)
    (hread : readEdges s.cfg s.last es = some bs) (hlen : bs.length < s.rem) :
    execAll (edgeEvents es) s = .next (s.afterBits bs) ∧ (s.afterBits bs).Receiving := by
  induction es generalizing s bs with
  | nil =>
    obtain rfl : [] = bs := Option.some.inj hread
    exact ⟨rfl, h⟩
  | cons e es ih =>
    obtain ⟨dir, d⟩ := e
    have hrun : execAll (edgeEvents ((dir, d) :: es)) s = execAll (edgeEvents es) (edgeNext dir d s) :=
      execAll_cons _ _ s
    rw [hrun]
    obtain ⟨p, hp, ⟨hres, hrest⟩ | ⟨b, bs', hres, hrest, rfl⟩⟩ := readEdges_cons_eq_some hread
    · have hr : s.ready = false := by
        rw [← Bool.not_eq_true, h.ready_iff]
        omega
      have hnext : edgeNext dir d s = s := by
        rw [edgeNext_of_valid h.enabled hr hp, edgeValid_of_synced h.synced h.unlatched, hres]
        rfl
      rw [hnext]
      exact ih h hrest hlen
    · rw [List.length_cons] at hlen
      obtain ⟨hnext, hrec⟩ := h.edgeNext_of_bit hp hres (by omega)
      have hbit := edgeBit_eq_afterBits h.inv (by omega) b
      rw [hbit] at hnext hrec
      rw [hnext, ← afterBits_cons s b bs']
      exact ih hrec hrest (by simp only [State.afterBits, List.length_singleton]; omega)

/-- Settles O47: the run by induction; the edge that brings the last bit finds one slot left. -/
theorem edgeRunsFollowTheTables : Obligations.EdgeRunsFollowTheTables := by
  intro s es bs hl hsynced hread
  obtain ⟨-, -, -, hw, -⟩ := legal_bounds s.cfg hl
  have hrec := hsynced.receiving hl
  obtain ⟨-, -, -, -, hacc, hrem, hlast⟩ := hsynced
  have hrun (hlen : bs.length < s.cfg.w - 1) :=
    execAll_edges_eq_afterBits es hrec (by rw [hlast, hread]) (by rw [hrem]; exact hlen)
  have hafter : s.afterBits bs =
      { s with acc := frameValue bs, rem := s.cfg.w - 1 - bs.length, last := lastOf .one bs } := by
    simp only [State.afterBits, frameValue, hacc, hrem, hlast]
  refine ⟨fun hlen => hafter ▸ (hrun hlen).1, fun e b hlen hread' => ?_⟩
  obtain ⟨dir, d⟩ := e
  obtain ⟨hfirst, hrec'⟩ := hrun (by omega)
  have hlastEdge : readEdges s.cfg (lastOf .one bs) [(dir, d)] = some [b] := by
    rw [readEdges_append _ hread] at hread'
    simpa using hread'
  obtain ⟨p, hp, hres⟩ := readEdges_singleton hlastEdge
  rw [hafter] at hfirst hrec'
  obtain ⟨hnext, -⟩ := hrec'.edgeNext_of_bit hp hres (by simp only; omega)
  have hone : s.cfg.w - 1 - bs.length = 1 := by omega
  rw [edgeEvents, List.map_append, ← edgeEvents, execAll_append_of_next hfirst, List.map_singleton, execAll_cons,
    execAll_nil, execNext, hnext, edgeBit_of_inv hrec'.inv (by simp only; omega), frameValue_append_singleton]
  simp [hone]

/-! ### Alternating edges -/

/-- With `FZS = Invalid`, if the edge after a Zero is a Falling one, the next bit is a One (R96, R207). -/
theorem readEdges_falling_after_zero {c : Config} {d : Nat} {es : List (Direction × Nat)} {bs : List DataBit}
    (hf : c.fzs = .invalid) (h : readEdges c .zero ((.falling, d) :: es) = some bs) : bs.head? = some .one := by
  obtain ⟨p, -, ⟨hres, -⟩ | ⟨b, bs', hres, -, rfl⟩⟩ := readEdges_cons_eq_some h
  · rcases resolve_falling_zero c hf p with hno | hone
    · simp [hno] at hres
    · simp [hone] at hres
  · rw [eq_bitOfDirection_of_resolve hres]
    rfl

/-- After a Zero that a Rising edge committed, alternating edges bring no Zero next: the next edge is a Falling one (R207). -/
theorem readEdges_head_ne_zero {c : Config} {d : Nat} {es : List (Direction × Nat)} {bs : List DataBit}
    (hf : c.fzs = .invalid) (hchain : (((.rising, d) :: es).map Prod.fst).IsChain (fun a b => a ≠ b))
    (h : readEdges c .zero es = some bs) : bs.head? ≠ some .zero := by
  cases es with
  | nil =>
    obtain rfl : [] = bs := Option.some.inj h
    simp
  | cons e es =>
    obtain ⟨dir, d'⟩ := e
    cases dir with
    | rising => simp at hchain
    | falling => simp [readEdges_falling_after_zero hf h]

/-- Settles O50, along the edges: only a Rising edge commits a Zero, and what follows it starts with no Zero. -/
theorem alternatingEdgesNoDoubleZero : Obligations.AlternatingEdgesNoDoubleZero := by
  intro c last es bs hf hchain hread
  induction es generalizing last bs with
  | nil =>
    obtain rfl : [] = bs := Option.some.inj hread
    exact .nil
  | cons e es ih =>
    obtain ⟨dir, d⟩ := e
    have htail : (es.map Prod.fst).IsChain (fun a b => a ≠ b) := hchain.tail
    obtain ⟨p, -, ⟨-, hrest⟩ | ⟨b, bs', hres, hrest, rfl⟩⟩ := readEdges_cons_eq_some hread
    · exact ih last bs htail hrest
    · refine List.isChain_cons.2 ⟨fun b' hb' => ?_, ih b bs' htail hrest⟩
      rintro ⟨rfl, rfl⟩
      cases dir with
      | rising => exact readEdges_head_ne_zero hf hchain hrest hb'
      | falling => cases eq_bitOfDirection_of_resolve hres

/-! ### RESET_TO_IDLE -/

/-- RESET_TO_IDLE reads of the block only what it does not write: `en` (R102). -/
theorem resetToIdle_congr {s s' : State} (hcfg : s'.cfg = s.cfg) (hen : s'.en = s.en) (hinputs : s'.inputs = s.inputs)
    (houts : s'.outs = s.outs) (hlog : s'.log = s.log) : s'.resetToIdle = s.resetToIdle := by
  simp only [State.resetToIdle, hcfg, hen, hinputs, houts, hlog]

/-- Settles O58: the first event leaves the same state in both machines, for it only adds to the result of RESET_TO_IDLE. -/
theorem resetLeavesNoTrace : Obligations.ResetLeavesNoTrace := by
  intro s s' i is hcfg hen hinputs houts hlog hi
  have hreset := resetToIdle_congr hcfg hen hinputs houts hlog
  have hnext : execNext i s' = execNext i s := by
    rcases hi with ⟨rfl, htrue⟩ | rfl | rfl
    · simp only [execNext, hen, htrue, hreset]
      rfl
    · simp only [execNext, hreset]
    · simp only [execNext, hreset]
  rw [execAll_cons, execAll_cons, hnext]

end Sys2Proof.Machine

/-! PROOFS for the family of 41_controller.md: EDGE branch by branch (R121 to R127), TIMEOUT (R130, R131), TAKE (R140, R141),
DISABLE (R145) and ENABLE (R150), the summary of transitions (R155), and runs of edges that find no frame in progress. -/

namespace Sys2Proof.Machine

open Sys2Proof

/-! ### The empty form -/

/-- RESET_TO_IDLE finds nothing to write in the empty form (R102). -/
theorem State.emptyForm.resetToIdle_eq {s : State} (h : s.emptyForm) : s.resetToIdle = s := by
  obtain ⟨hacc, hrem, hlast, herr, hsync, hready⟩ := h
  cases s
  simp_all [State.resetToIdle]

/-- The empty form is a matter of the configuration and the state record alone. -/
theorem State.emptyForm.of_block_eq {s t : State} (h : s.emptyForm) (hc : t.cfg = s.cfg) (hb : t.block = s.block) :
    t.emptyForm := by
  obtain ⟨hacc, hrem, hlast, herr, hsync, hready, -⟩ := (block_eq_iff s t).1 hb
  simpa only [State.emptyForm, hc, hacc, hrem, hlast, herr, hsync, hready] using h

/-- Disabled, the block is in the empty form (I6, I1). -/
theorem State.Inv.emptyForm_of_disabled {s : State} (h : s.Inv) (hen : s.en = false) : s.emptyForm :=
  h.emptyForm_of_unsynced (h.disabled hen)

/-! ### The controller states, by the flags -/

theorem view_eq_idle_iff (s : State) : s.view = .idle ↔ s.sync = false := by
  unfold State.view
  cases s.sync <;> cases s.ready <;> cases s.err <;> simp

theorem view_eq_frameReady_iff (s : State) : s.view = .frameReady ↔ s.sync = true ∧ s.ready = true := by
  unfold State.view
  cases s.sync <;> cases s.ready <;> cases s.err <;> simp

theorem view_eq_error_iff (s : State) : s.view = .error ↔ s.sync = true ∧ s.ready = false ∧ s.err = true := by
  unfold State.view
  cases s.sync <;> cases s.ready <;> cases s.err <;> simp

theorem State.emptyForm.view_eq {s : State} (h : s.emptyForm) : s.view = .idle := by
  obtain ⟨-, -, -, -, hsync, -⟩ := h
  exact (view_eq_idle_iff s).2 hsync

theorem State.justSynced.view_eq {s : State} (h : s.justSynced) : s.view = .accumulating := by
  obtain ⟨-, hsync, hready, herr, -⟩ := h
  exact (view_eq_accumulating_iff s).2 ⟨hsync, hready, herr⟩

/-! ### EDGE, down to the state it leaves -/

section EdgeStates

variable {s : State} {dir : Direction} {d : Nat} {p : Pulse}

/-- A valid duration is one of a pulse (R95). -/
theorem exists_pulse_of_valid {c : Config} (hd : classify c d ≠ .invalid) : ∃ p, (classify c d).pulse = some p :=
  Option.ne_none_iff_exists'.1 fun hnone => hd ((pulse_eq_none_iff _).1 hnone)

theorem edgeNext_falling_of_unsynced (hen : s.en = true) (hr : s.ready = false) (hd : classify s.cfg d ≠ .invalid)
    (hs : s.sync = false) : edgeNext .falling d s = s.setSync true := by
  obtain ⟨p, hp⟩ := exists_pulse_of_valid hd
  rw [edgeNext_of_valid hen hr hp, edgeValid_falling_of_unsynced hs]

theorem edgeNext_rising_of_unsynced (hen : s.en = true) (hr : s.ready = false) (hd : classify s.cfg d ≠ .invalid)
    (hs : s.sync = false) : edgeNext .rising d s = s := by
  obtain ⟨p, hp⟩ := exists_pulse_of_valid hd
  rw [edgeNext_of_valid hen hr hp, edgeValid_rising_of_unsynced hs]

theorem edgeNext_of_latched (hen : s.en = true) (hr : s.ready = false) (hd : classify s.cfg d ≠ .invalid)
    (hs : s.sync = true) (herr : s.err = true) :
    edgeNext dir d s = s.resetToIdle.logCause .framingInconsistency := by
  obtain ⟨p, hp⟩ := exists_pulse_of_valid hd
  rw [edgeNext_of_valid hen hr hp, edgeValid_of_latched hs herr]

theorem edgeNext_of_synced (hen : s.en = true) (hr : s.ready = false) (hp : (classify s.cfg d).pulse = some p)
    (hs : s.sync = true) (herr : s.err = false) :
    edgeNext dir d s = edgeResolved (resolve s.cfg dir s.last p) s := by
  rw [edgeNext_of_valid hen hr hp, edgeValid_of_synced hs herr]

theorem edgeNext_invalid_emptyForm (hen : s.en = true) (hr : s.ready = false) (hd : classify s.cfg d = .invalid) :
    (edgeNext dir d s).emptyForm := by
  rw [edgeNext_of_invalid hen hr hd]
  exact resetToIdle_logCause_emptyForm s _

/-- Under the latch an EDGE resets, whether its duration is valid (R125) or not (R123). -/
theorem edgeNext_latched_emptyForm (hen : s.en = true) (hr : s.ready = false) (hs : s.sync = true) (herr : s.err = true) :
    (edgeNext dir d s).emptyForm := by
  by_cases hd : classify s.cfg d = .invalid
  · exact edgeNext_invalid_emptyForm hen hr hd
  · rw [edgeNext_of_latched hen hr hd hs herr]
    exact resetToIdle_logCause_emptyForm s _

/-- From the empty form a valid Falling edge leaves the synchronized empty form (R124). -/
theorem edgeNext_falling_justSynced (h : s.emptyForm) (hen : s.en = true) (hd : classify s.cfg d ≠ .invalid) :
    (edgeNext .falling d s).justSynced := by
  obtain ⟨hacc, hrem, hlast, herr, hsync, hready⟩ := h
  rw [edgeNext_falling_of_unsynced hen hready hd hsync]
  exact ⟨hen, rfl, hready, herr, hacc, hrem, hlast⟩

/-- No other edge changes the block in the empty form: a reset finds it already there (R123), a valid Rising edge writes nothing
(R124). -/
theorem edgeNext_block_of_emptyForm (h : s.emptyForm) (hen : s.en = true)
    (hd : dir = .rising ∨ classify s.cfg d = .invalid) : (edgeNext dir d s).block = s.block := by
  obtain ⟨-, -, -, -, hsync, hready⟩ := id h
  by_cases hinv : classify s.cfg d = .invalid
  · rw [edgeNext_of_invalid hen hready hinv, h.resetToIdle_eq, State.logCause_block]
  · obtain rfl := hd.resolve_right hinv
    rw [edgeNext_rising_of_unsynced hen hready hinv hsync]

/-- The view after a committed bit (R128): the last slot's bit completes the frame. -/
theorem edgeBit_view (h : s.Inv) (hv : s.view = .accumulating) (b : DataBit) :
    (edgeBit b s).view = if s.rem = 1 then .frameReady else .accumulating := by
  obtain ⟨hs, hr, herr⟩ := (view_eq_accumulating_iff s).1 hv
  obtain ⟨hpos, -⟩ := h.partial_frame hs hr
  rw [edgeBit_of_inv h hpos b]
  by_cases hlast : s.rem = 1
  · simp [hlast, State.view, hs]
  · simp [hlast, State.view, hs, hr, herr]

end EdgeStates

/-! ### The branches of EDGE -/

/-- Settles O22, by the first test of R120. -/
theorem edgeWhileDisabled : Obligations.EdgeWhileDisabled := by
  intro s dir d hen
  rw [exec_edge, edgeNext_of_disabled hen]

/-- Settles O23: enabled, the branch of R122; disabled, that of R121. -/
theorem edgeWhileFrameReady : Obligations.EdgeWhileFrameReady := by
  intro s dir d hr
  by_cases hen : s.en = true
  · rw [exec_edge, edgeNext_of_ready hen hr, if_pos hen]
    rfl
  · rw [exec_edge, edgeNext_of_disabled (by simpa using hen), if_neg hen]

/-- Settles O24: under the latch both edges reset, and what is logged with it is no field of the block. -/
theorem edgeWithInvalidDuration : Obligations.EdgeWithInvalidDuration := by
  intro s dir d hen hr hd
  refine ⟨?_, fun hinv hs => ?_, fun dir' d' hs herr hd' => ⟨_, _, exec_edge dir d s, exec_edge dir' d' s, ?_⟩⟩
  · rw [exec_edge, edgeNext_of_invalid hen hr hd]
    rfl
  · rw [goes_iff]
    exact edgeNext_block_of_emptyForm (hinv.emptyForm_of_unsynced hs) hen (.inr hd)
  · rw [edgeNext_of_invalid hen hr hd, edgeNext_of_latched hen hr hd' hs herr, State.logCause_block, State.logCause_block]

/-- Settles O25: on the empty form, `sync` is all that the synchronizing edge has to write. -/
theorem edgeBeforeSynchronization : Obligations.EdgeBeforeSynchronization := by
  intro s d hen hr hd hs
  refine ⟨?_, ?_, fun hempty => ?_⟩
  · rw [exec_edge, edgeNext_falling_of_unsynced hen hr hd hs]
    rfl
  · rw [exec_edge, edgeNext_rising_of_unsynced hen hr hd hs]
  · rw [goes_iff]
    exact edgeNext_falling_justSynced hempty hen hd

/-- Settles O26, by the latched branch of EDGE (R125). -/
theorem edgeUnderTheLatch : Obligations.EdgeUnderTheLatch := by
  intro s dir d hen hr hd hs herr
  rw [exec_edge, edgeNext_of_latched hen hr hd hs herr]
  rfl

/-- Settles O27: each event after the latching edge is an EDGE under the latch or one of the events that always reset. -/
theorem edgeLatchesTheError : Obligations.EdgeLatchesTheError := by
  intro s dir d p hen hr hp hs herr hres
  refine ⟨?_, fun i hi => ?_⟩
  · rw [exec_edge, edgeNext_of_synced hen hr hp hs herr, hres]
    rfl
  · rw [goes_iff]
    change (execNext i (s.setErr true)).emptyForm
    cases i with
    | edge dir' d' => exact edgeNext_latched_emptyForm hen hr hs rfl
    | timeout => exact (execNext_emptyForm (s.setErr true) .timeout (.inl ⟨rfl, hen⟩)).1
    | take => exact absurd rfl hi
    | disable => exact (execNext_emptyForm (s.setErr true) .disable (.inr (.inl rfl))).1
    | enable => exact (execNext_emptyForm (s.setErr true) .enable (.inr (.inr rfl))).1

/-- Settles O28, by the branch of EDGE that resolves (R127). -/
theorem edgeWithoutABit : Obligations.EdgeWithoutABit := by
  intro s dir d p hen hr hp hs herr hres
  rw [exec_edge, edgeNext_of_synced hen hr hp hs herr, hres]
  rfl

/-! ### TIMEOUT, TAKE, DISABLE and ENABLE -/

theorem execNext_timeout_of_disabled {s : State} (hen : s.en = false) : execNext .timeout s = s := by
  simp [execNext, hen]

theorem execNext_timeout_of_enabled {s : State} (hen : s.en = true) :
    execNext .timeout s = s.resetToIdle.logCause .signalTimeout := by
  simp [execNext, hen]

theorem execNext_take_of_ready {s : State} (hr : s.ready = true) :
    execNext .take s = (s.respond (some s.acc)).resetToIdle.logCause .drained := by
  simp [execNext, hr]

/-- Settles O32: disabled, the block is in the empty form, where a reset has nothing to write. -/
theorem timeoutResets : Obligations.TimeoutResets := by
  refine fun s => ⟨fun hen => ?_, fun hen => ?_, fun hinv hen => ?_⟩
  · rw [exec_eq_next, execNext_timeout_of_enabled hen]
    rfl
  · rw [exec_eq_next, execNext_timeout_of_disabled hen]
  · rw [(hinv.emptyForm_of_disabled hen).resetToIdle_eq]

/-- Settles O33: disabled, no frame is ready. -/
theorem takeDrainsOrNothing : Obligations.TakeDrainsOrNothing := by
  intro s
  have hnone : s.ready = false → exec .take s = .next { s with outs := s.outs ++ [none] } := by
    intro hr
    rw [exec_eq_next, execNext_take_of_not_ready s hr]
    rfl
  refine ⟨fun hr => ?_, hnone, fun hinv hen => ?_⟩
  · rw [exec_eq_next, execNext_take_of_ready hr]
    rfl
  · obtain ⟨-, -, -, -, -, hr⟩ := hinv.emptyForm_of_disabled hen
    exact hnone hr

/-- Settles O34: no test guards DISABLE. -/
theorem disableResets : Obligations.DisableResets := by
  intro s
  rw [exec_eq_next]
  rfl

/-- Settles O35: no test guards ENABLE. -/
theorem enableResets : Obligations.EnableResets := by
  intro s
  rw [exec_eq_next]
  rfl

/-! ### The summary of transitions -/

/-- A TAKE that finds no frame keeps the block and answers None (R141). -/
theorem execNext_take_none {s : State} (hr : s.ready = false) :
    (execNext .take s).block = s.block ∧ (execNext .take s).outs = s.outs ++ [none] := by
  rw [execNext_take_of_not_ready s hr]
  exact ⟨rfl, rfl⟩

/-- A TAKE that finds a frame leaves the empty form and answers the frame (R140). -/
theorem execNext_take_some {s : State} (hr : s.ready = true) :
    (execNext .take s).emptyForm ∧ (execNext .take s).outs = s.outs ++ [some s.acc] := by
  rw [execNext_take_of_ready hr]
  exact ⟨resetToIdle_logCause_emptyForm _ _, rfl⟩

/-- The row Accumulating, for a valid edge: one next state for each resolution (R126 to R128). -/
theorem edgeNext_accumulating_view {s : State} (h : s.Inv) (hen : s.en = true) (hv : s.view = .accumulating)
    (dir : Direction) {d : Nat} {p : Pulse} (hp : (classify s.cfg d).pulse = some p) :
    (resolve s.cfg dir s.last p = .invalid → (edgeNext dir d s).view = .error) ∧
    (resolve s.cfg dir s.last p = .noBit → (edgeNext dir d s).block = s.block) ∧
    (∀ b : DataBit, resolve s.cfg dir s.last p = b.toSymbol →
      (edgeNext dir d s).view = if s.rem = 1 then .frameReady else .accumulating) := by
  obtain ⟨hs, hr, herr⟩ := (view_eq_accumulating_iff s).1 hv
  rw [edgeNext_of_synced hen hr hp hs herr]
  refine ⟨fun hres => ?_, fun hres => ?_, fun b hres => ?_⟩
  · rw [hres]
    exact (view_eq_error_iff _).2 ⟨hs, hr, rfl⟩
  · rw [hres]
    rfl
  · rw [hres, edgeResolved_toSymbol]
    exact edgeBit_view h hv b

/-- Settles O42, row by row of the table: the flags of each controller state select the branch of each event. -/
theorem transitionSummary : Obligations.TransitionSummary := by
  simp only [Obligations.TransitionSummary, goes_iff]
  refine fun s h => ⟨fun hen => ⟨fun hidle => ?_, fun hacc => ?_, fun herror => ?_, fun hready => ?_, ?_, ?_, ?_⟩,
    fun hdis => ?_⟩
  · have hempty := h.emptyForm_of_unsynced ((view_eq_idle_iff s).1 hidle)
    obtain ⟨-, -, -, -, hs, hr⟩ := id hempty
    refine ⟨fun dir d hd => (edgeNext_invalid_emptyForm hen hr hd).view_eq, fun d hd => ?_, fun d hd => ?_,
      execNext_take_none hr⟩
    · have hsynced : (execNext (.edge .falling d) s).justSynced := edgeNext_falling_justSynced hempty hen hd
      obtain ⟨-, -, -, -, -, hrem, -⟩ := id hsynced
      obtain ⟨hcfg, -⟩ := execNext_frame (.edge .falling d) s
      exact ⟨hsynced.view_eq, by rw [hrem, hcfg]⟩
    · rw [execNext, edgeNext_rising_of_unsynced hen hr hd hs, hidle]
  · obtain ⟨-, hr, -⟩ := (view_eq_accumulating_iff s).1 hacc
    exact ⟨fun dir d hd => (edgeNext_invalid_emptyForm hen hr hd).view_eq,
      fun dir d p hp => edgeNext_accumulating_view h hen hacc dir hp, execNext_take_none hr⟩
  · obtain ⟨hs, hr, herr⟩ := (view_eq_error_iff s).1 herror
    exact ⟨fun dir d => (edgeNext_latched_emptyForm hen hr hs herr).view_eq, execNext_take_none hr⟩
  · obtain ⟨-, hr⟩ := (view_eq_frameReady_iff s).1 hready
    obtain ⟨hempty, houts⟩ := execNext_take_some hr
    exact ⟨fun dir d => edgeNext_block_of_ready dir d s hr, hempty.view_eq, houts⟩
  · refine ⟨(execNext_emptyForm s .timeout (.inl ⟨rfl, hen⟩)).1.view_eq, ?_⟩
    rw [execNext_timeout_of_enabled hen]
    exact hen
  · exact ⟨(execNext_emptyForm s .disable (.inr (.inl rfl))).1.view_eq, rfl⟩
  · exact ⟨(execNext_emptyForm s .enable (.inr (.inr rfl))).1.view_eq, rfl⟩
  · have hempty := h.emptyForm_of_disabled hdis
    obtain ⟨-, -, -, -, -, hr⟩ := id hempty
    refine ⟨hempty.view_eq, fun dir d => ?_, ?_, execNext_take_none hr, ?_,
      (execNext_emptyForm s .enable (.inr (.inr rfl))).1.view_eq, rfl⟩
    · rw [execNext, edgeNext_of_disabled hdis]
    · rw [execNext_timeout_of_disabled hdis]
    · rw [execNext, hempty.resetToIdle_eq, State.logCause_block, ← hdis]
      rfl

/-! ### Runs of events that find no frame in progress -/

@[simp] theorem edgeEvents_cons (e : Direction × Nat) (es : List (Direction × Nat)) :
    edgeEvents (e :: es) = .edge e.1 e.2 :: edgeEvents es := rfl

/-- Settles O53: of the callbacks neither EDGE (R121) nor TIMEOUT (R131) changes a disabled block, so the next one finds it
disabled again. -/
theorem disabledIgnoresCallbacks : Obligations.DisabledIgnoresCallbacks := by
  intro s is hen hcb
  induction is with
  | nil => rfl
  | cons i is ih =>
    obtain ⟨hcbi, hcbs⟩ := List.forall_mem_cons.1 hcb
    have hkeep : execNext i s = s := by
      cases i with
      | edge dir d => exact edgeNext_of_disabled hen
      | timeout => exact execNext_timeout_of_disabled hen
      | take => simp [isCallback] at hcbi
      | disable => simp [isCallback] at hcbi
      | enable => simp [isCallback] at hcbi
    rw [execAll_cons, hkeep, ih hcbs]

/-- Each edge of a run on a ready frame adds one FrameOverrun to the log and leaves the frame ready for the next (R122). -/
theorem execAll_edges_of_ready (es : List (Direction × Nat)) {s : State} (hen : s.en = true) (hr : s.ready = true) :
    execAll (edgeEvents es) s = .next { s with log := s.log ++ List.replicate es.length .frameOverrun } := by
  induction es generalizing s with
  | nil => simp [edgeEvents]
  | cons e es ih =>
    have hnext : execNext (.edge e.1 e.2) s = s.logCause .frameOverrun := edgeNext_of_ready hen hr
    rw [edgeEvents_cons, execAll_cons, hnext, ih (s := s.logCause .frameOverrun) hen hr, List.length_cons,
      List.replicate_succ, List.append_cons]
    rfl

/-- Settles O54: the TAKE finds the frame that the run of edges has kept. -/
theorem readyFrameOutlivesEdges : Obligations.ReadyFrameOutlivesEdges := by
  intro s es hen hr
  have hrun := execAll_edges_of_ready es hen hr
  obtain ⟨hempty, houts⟩ := execNext_take_some
    (s := { s with log := s.log ++ List.replicate es.length .frameOverrun }) hr
  exact ⟨hrun, _, by rw [execAll_append_of_next hrun, execAll_cons, execAll_nil], houts, hempty⟩

/-- A run of edges that do not synchronize keeps the enabled empty form: each leaves the block as it was, so the next one finds
it in the empty form again. -/
theorem execAll_edges_of_emptyForm (es : List (Direction × Nat)) {s : State} (h : s.emptyForm) (hen : s.en = true)
    (hes : ∀ e ∈ es, e.1 = .rising ∨ classify s.cfg e.2 = .invalid) :
    ∃ t, execAll (edgeEvents es) s = .next t ∧ t.cfg = s.cfg ∧ t.block = s.block := by
  induction es generalizing s with
  | nil => exact ⟨s, rfl, rfl, rfl⟩
  | cons e es ih =>
    obtain ⟨he, hrest⟩ := List.forall_mem_cons.1 hes
    obtain ⟨hcfg, -⟩ := execNext_frame (.edge e.1 e.2) s
    have hblock : (execNext (.edge e.1 e.2) s).block = s.block := edgeNext_block_of_emptyForm h hen he
    obtain ⟨t, hrun, htcfg, htblock⟩ := ih (h.of_block_eq hcfg hblock) ((congrArg Block.en hblock).trans hen)
      (by rwa [hcfg])
    exact ⟨t, by rw [edgeEvents_cons, execAll_cons, hrun], htcfg.trans hcfg, htblock.trans hblock⟩

/-- Settles O52: the run leaves the enabled empty form, from which the valid Falling edge synchronizes. -/
theorem resynchronizesOnFallingEdge : Obligations.ResynchronizesOnFallingEdge := by
  intro s es d h hen hes hd
  obtain ⟨t, hrun, hcfg, hblock⟩ := execAll_edges_of_emptyForm es h hen hes
  refine ⟨⟨t, hrun, hblock⟩, execNext (.edge .falling d) t, ?_, ?_⟩
  · rw [execAll_append_of_next hrun, execAll_cons, execAll_nil]
  · exact edgeNext_falling_justSynced (h.of_block_eq hcfg hblock) ((congrArg Block.en hblock).trans hen) (by rwa [hcfg])

end Sys2Proof.Machine

/-! PROOFS for the family of 60_exceptions.md: the one cause of an EDGE (R167), the causes and their resets (R161 to R166), and
runs that never stop (R160, R172). -/

namespace Sys2Proof.Machine

open Sys2Proof

/-! ### The one cause of an EDGE -/

/-- A resolution logs nothing, whatever its result (R126 to R128). -/
@[simp] theorem edgeResolved_log (sym : BitSymbol) (s : State) : (edgeResolved sym s).log = s.log := by
  cases sym with
  | invalid => rfl
  | noBit => rfl
  | zero => simp [edgeResolved, edgeBit_eq]
  | one => simp [edgeResolved, edgeBit_eq]

/-- The synchronization of the block logs nothing (R124). -/
theorem edgeValid_log_of_unsynced (dir : Direction) (p : Pulse) {s : State} (hs : s.sync = false) :
    (edgeValid dir p s).log = s.log := by
  cases dir with
  | falling => rw [edgeValid_falling_of_unsynced hs, State.setSync_log]
  | rising => rw [edgeValid_rising_of_unsynced hs]

/-- What a valid pulse logs: a reset under the latch is all there is to report (R125). -/
theorem edgeValid_log (dir : Direction) (p : Pulse) (s : State) : (edgeValid dir p s).log = s.log ++
    (if s.sync = false then [] else if s.err = true then [.framingInconsistency] else []) := by
  cases hs : s.sync with
  | false => simp [edgeValid_log_of_unsynced dir p hs]
  | true =>
    cases herr : s.err with
    | false => simp [edgeValid_of_synced hs herr]
    | true => simp [edgeValid_of_latched hs herr]

/-- Settles O30, test by test in the order of R167. -/
theorem edgeReportsOneCause : Obligations.EdgeReportsOneCause := by
  intro s dir d
  rw [goes_iff, execNext]
  cases hen : s.en with
  | false => simp [edgeNext_of_disabled hen]
  | true =>
    cases hr : s.ready with
    | true => simp [edgeNext_of_ready hen hr]
    | false =>
      by_cases hd : classify s.cfg d = .invalid
      · simp [edgeNext_of_invalid hen hr hd, hd]
      · obtain ⟨p, hp⟩ := exists_pulse_of_valid hd
        simp [edgeNext_of_valid hen hr hp, edgeValid_log, hd]

/-! ### The causes of each event -/

/-- The causes an event can log: the column "logged by" of R166's table. -/
def causesOf : Instr → List Cause
  | .edge _ _ => [.timingOutOfRange, .framingInconsistency, .frameOverrun]
  | .timeout => [.signalTimeout]
  | .take => [.drained]
  | .disable => [.disabled]
  | .enable => [.enabled]

/-- An event leaves the block as the cause `c` says: in the empty form if the cause resets, else unchanged (R166). -/
def LeftBy (c : Cause) (s t : State) : Prop :=
  (c.resets = true → t.emptyForm) ∧ (c.resets = false → t.block = s.block)

/-- RESET_TO_IDLE leaves the block as a cause that resets says. -/
theorem leftBy_of_emptyForm {c : Cause} {s t : State} (hc : c.resets = true) (h : t.emptyForm) : LeftBy c s t :=
  ⟨fun _ => h, fun hkeep => absurd (hc.symm.trans hkeep) (by decide)⟩

/-- FrameOverrun, the one cause without a reset, is logged on an unchanged block (R163). -/
theorem leftBy_frameOverrun (s : State) : LeftBy .frameOverrun s (s.logCause .frameOverrun) :=
  ⟨fun hreset => absurd hreset (by decide), fun _ => s.logCause_block _⟩

/-- What an event does to the log: nothing, or it appends one of its causes and leaves the block as that cause says. -/
theorem execNext_log_cases (i : Instr) (s : State) : (execNext i s).log = s.log ∨
    ∃ c ∈ causesOf i, (execNext i s).log = s.log ++ [c] ∧ LeftBy c s (execNext i s) := by
  cases i with
  | edge dir d =>
    simp only [execNext]
    rcases edgeNext_cases dir d s with ⟨-, h⟩ | ⟨-, -, h⟩ | ⟨-, -, -, h⟩ | ⟨-, -, -, p, -, ⟨-, h⟩ | ⟨-, h⟩⟩ |
      ⟨-, -, -, -, p, -, h⟩ | ⟨-, -, -, -, p, -, ⟨-, h⟩ | ⟨-, h⟩ | ⟨b, -, h⟩⟩ <;> rw [h]
    · exact .inl rfl
    · exact .inr ⟨.frameOverrun, by simp [causesOf], rfl, leftBy_frameOverrun s⟩
    · exact .inr ⟨.timingOutOfRange, by simp [causesOf], rfl, leftBy_of_emptyForm rfl (resetToIdle_logCause_emptyForm s _)⟩
    · exact .inl rfl
    · exact .inl rfl
    · exact .inr ⟨.framingInconsistency, by simp [causesOf], rfl,
        leftBy_of_emptyForm rfl (resetToIdle_logCause_emptyForm s _)⟩
    · exact .inl rfl
    · exact .inl rfl
    · exact .inl (by rw [edgeBit_eq])
  | timeout =>
    cases hen : s.en with
    | false => exact .inl (by rw [execNext_timeout_of_disabled hen])
    | true =>
      refine .inr ⟨.signalTimeout, by simp [causesOf], ?_,
        leftBy_of_emptyForm rfl (execNext_emptyForm s _ (.inl ⟨rfl, hen⟩)).1⟩
      rw [execNext_timeout_of_enabled hen, State.logCause_log, State.resetToIdle_log]
  | take =>
    cases hr : s.ready with
    | false => exact .inl (by rw [execNext_take_of_not_ready s hr, State.respond_log])
    | true =>
      refine .inr ⟨.drained, by simp [causesOf], ?_, leftBy_of_emptyForm rfl (execNext_take_some hr).1⟩
      rw [execNext_take_of_ready hr, State.logCause_log, State.resetToIdle_log, State.respond_log]
  | disable =>
    exact .inr ⟨.disabled, by simp [causesOf], rfl, leftBy_of_emptyForm rfl (execNext_emptyForm s _ (.inr (.inl rfl))).1⟩
  | enable =>
    exact .inr ⟨.enabled, by simp [causesOf], rfl, leftBy_of_emptyForm rfl (execNext_emptyForm s _ (.inr (.inr rfl))).1⟩

/-- Settles O37: the cause that the log shows is the one the event appended. -/
theorem loggedCauses : Obligations.LoggedCauses := by
  refine ⟨rfl, rfl, fun i s t c hexec hlog => ?_⟩
  rw [exec_eq_next] at hexec
  cases hexec
  rcases execNext_log_cases i s with hsame | ⟨c', hmem, hlog', hreset, hkeep⟩
  · rw [hsame] at hlog
    simp at hlog
  · obtain rfl : c' = c := by simpa using hlog'.symm.trans hlog
    refine ⟨hreset, hkeep, ?_⟩
    cases i <;> simpa [causesOf] using hmem

/-! ### Runs on legal transactions -/

/-- The integrator keeps its duties (R172): the configuration is legal and so is every transaction still to come. -/
def State.LegallyDriven (s : State) : Prop :=
  s.cfg.legal = true ∧ ∀ tr ∈ s.inputs, hostLegal s.cfg tr = true

/-- No event word is presented while `rst` is asserted (R190). -/
theorem hostLegal_of_event_under_reset {c : Config} {tr : Transaction} (hrst : tr.rst = true) (hv : tr.evValid = true) :
    hostLegal c tr = false := by
  simp [hostLegal, hrst, hv]

/-- No illegal word is presented (R175). -/
theorem hostLegal_of_illegal_word {c : Config} {tr : Transaction} {r : IllegalReason} (hrst : tr.rst = false)
    (hv : tr.evValid = true) (hdec : decode c.dw tr.evWord = .illegal r) : hostLegal c tr = false := by
  simp [hostLegal, hrst, hv, hdec]

/-- Taking a transaction leaves legal ones. -/
theorem State.LegallyDriven.of_taken {s t : State} {tr : Transaction} {rest : List Transaction} (h : s.LegallyDriven)
    (hin : s.inputs = tr :: rest) (hcfg : t.cfg = s.cfg) (hinputs : t.inputs = rest) : t.LegallyDriven := by
  obtain ⟨hl, hall⟩ := h
  rw [hin] at hall
  exact ⟨by rwa [hcfg], by rw [hcfg, hinputs]; exact (List.forall_mem_cons.1 hall).2⟩

/-- On legal transactions a step answers a next state, and its transactions are legal: of the deliveries of a step, each refusal
is of a move that the integrator does not make. -/
theorem step_of_legallyDriven {s : State} (h : s.LegallyDriven) : ∃ t, step s = .next t ∧ t.LegallyDriven := by
  obtain ⟨hl, hall⟩ := id h
  rcases step_cases s with ⟨hl', -⟩ | ⟨-, -, he⟩ | ⟨-, tr, rest, hin, hc⟩
  · exact absurd (hl.symm.trans hl') (by decide)
  · exact ⟨s, he, h⟩
  · have htr : hostLegal s.cfg tr = true := hall tr (by simp [hin])
    rcases hc with ⟨hrst, hv, -⟩ | ⟨-, -, he⟩ | ⟨-, -, he⟩ | ⟨-, -, i, -, he⟩ | ⟨hrst, hv, r, hdec, -⟩
    · simp [hostLegal_of_event_under_reset hrst hv] at htr
    · exact ⟨_, he, h.of_taken hin rfl rfl⟩
    · exact ⟨_, he, h.of_taken hin rfl rfl⟩
    · obtain ⟨hcfg, hinputs⟩ := execNext_frame i { s with inputs := rest }
      exact ⟨_, he, h.of_taken hin hcfg hinputs⟩
    · simp [hostLegal_of_illegal_word hrst hv hdec] at htr

/-- A legally driven machine runs any number of steps. -/
theorem safeRun_of_legallyDriven (n : Nat) {s : State} (h : s.LegallyDriven) : SafeRun n s := by
  induction n generalizing s with
  | zero => exact ⟨s, rfl⟩
  | succ n ih =>
    obtain ⟨t, hstep, ht⟩ := step_of_legallyDriven h
    rw [SafeRun, run_succ_of_step n hstep]
    exact ih ht

/-- Settles O44. -/
theorem legalRunsNeverStop : Obligations.LegalRunsNeverStop :=
  fun _ hl hall n => safeRun_of_legallyDriven n ⟨hl, hall⟩

end Sys2Proof.Machine

/-! PROOFS for the family of 70_reset_and_hazards.md: power-on reset by the port (R190, R191), saturated intervals (R195, R202),
the static configuration (R205), and what the error latch costs (R206). -/

namespace Sys2Proof.Machine

open Sys2Proof

/-! ### Saturated intervals -/

/-- An interval that the duration input carries is delivered as it is. -/
theorem saturate_of_fits {c : Config} {n : Nat} (h : n < 2 ^ c.dw) : saturate c n = n :=
  min_eq_left (by omega)

/-- A longer interval is delivered as the largest duration. -/
theorem saturate_of_too_long {c : Config} {n : Nat} (h : 2 ^ c.dw ≤ n) : saturate c n = 2 ^ c.dw - 1 :=
  min_eq_right (by omega)

/-- Every delivered duration fits the input (R202). -/
theorem saturate_lt (c : Config) (n : Nat) : saturate c n < 2 ^ c.dw :=
  (min_le_right _ _).trans_lt (Nat.sub_one_lt (Nat.two_pow_pos _).ne')

/-- The boot condition in arithmetic: the largest duration is above the long window, on whose upper bound it may lie where that
is not inclusive (R195). -/
theorem bootCheck_iff (c : Config) : c.bootCheck = true ↔
    c.longMax < 2 ^ c.dw - 1 ∨ c.upperInclusive = false ∧ c.longMax ≤ 2 ^ c.dw - 1 := by
  unfold Config.bootCheck
  cases c.upperInclusive
  · simp
    omega
  · simp

/-- With the boot condition the largest duration is Invalid (R93, R195). -/
theorem classify_largest_duration {c : Config} (hl : c.legal = true) (hb : c.bootCheck = true) :
    classify c (2 ^ c.dw - 1) = .invalid := by
  obtain ⟨-, -, -, habove, hexclusive, -⟩ := classifyCorners c hl
  rcases (bootCheck_iff c).1 hb with hlt | ⟨hu, hle⟩
  · exact habove _ hlt
  · exact (hexclusive hu).2 _ hle

/-- Settles O11. A counter of 16 bits that wraps delivers an interval of `2^16 + 900` ticks as 900, a Short. -/
theorem saturatedIntervalsAreInvalid : Obligations.SaturatedIntervalsAreInvalid := by
  refine ⟨fun c n hl hb => ⟨saturate_lt c n, saturate_of_fits, fun hlong => ?_⟩, Config.standard, 2 ^ 16 + 900, by decide⟩
  rw [saturate_of_too_long hlong, classify_largest_duration hl hb]

/-! ### The static configuration -/

/-- Settles O21: of the deliveries of a step that answer a next state, none writes the configuration, and each but that of an
empty list takes the list's head. -/
theorem configurationIsStatic : Obligations.ConfigurationIsStatic := by
  intro s t hstep
  rcases step_cases s with ⟨-, he⟩ | ⟨-, hin, he⟩ | ⟨-, tr, rest, hin, hc⟩
  · rw [he] at hstep
    cases hstep
  · rw [he] at hstep
    cases hstep
    exact ⟨rfl, by rw [hin, List.tail_nil]⟩
  · rw [hin, List.tail_cons]
    rcases hc with ⟨-, -, he⟩ | ⟨-, -, he⟩ | ⟨-, -, he⟩ | ⟨-, -, i, -, he⟩ | ⟨-, -, r, -, he⟩ <;> rw [he] at hstep <;>
      cases hstep
    · exact ⟨rfl, rfl⟩
    · exact ⟨rfl, rfl⟩
    · exact execNext_frame i { s with inputs := rest }

/-! ### What the error latch costs -/

/-- An edge that resolves to Invalid sets the latch and changes nothing else (R126). -/
theorem edgeNext_of_resolved_invalid {s : State} {dir : Direction} {d : Nat} {p : Pulse} (hen : s.en = true)
    (hr : s.ready = false) (hs : s.sync = true) (herr : s.err = false) (hp : (classify s.cfg d).pulse = some p)
    (hres : resolve s.cfg dir s.last p = .invalid) : edgeNext dir d s = s.setErr true := by
  rw [edgeNext_of_synced hen hr hp hs herr, hres]
  rfl

/-- Settles O51: the edge under the latch resets and keeps `en` and the configuration, so a valid Falling edge synchronizes
after it. -/
theorem latchCostsOneEdge : Obligations.LatchCostsOneEdge := by
  intro s dir dir' d d' d'' p hen hr hs herr hp hres _ hd''
  have hlatch : execNext (.edge dir d) s = s.setErr true := edgeNext_of_resolved_invalid hen hr hs herr hp hres
  have hempty : (execNext (.edge dir' d') (s.setErr true)).emptyForm :=
    edgeNext_latched_emptyForm (s := s.setErr true) hen hr hs rfl
  have hen' : (execNext (.edge dir' d') (s.setErr true)).en = true := (edgeNext_en_outs dir' d' _).1.trans hen
  obtain ⟨hcfg, -⟩ := execNext_frame (.edge dir' d') (s.setErr true)
  simp only [execAll_cons, execAll_nil, hlatch]
  exact ⟨⟨_, rfl, hempty⟩, _, rfl, edgeNext_falling_justSynced hempty hen' (by rwa [hcfg])⟩

/-! ### Power-on reset by the port -/

/-- Power-on reset leaves the reset state of the configuration, but for what the environment presents and has observed (R42,
R190). -/
theorem powerOnReset_eq (s : State) : s.powerOnReset =
    { State.powerOn s.cfg with inputs := s.inputs, outs := s.outs, log := s.log ++ [.powerOn] } := rfl

/-- With `rst` asserted a transaction delivers power-on reset, or is refused if it presents an event word (R190). -/
theorem deliverTransaction_of_rst {tr : Transaction} (s : State) (hrst : tr.rst = true) :
    deliverTransaction tr s = if tr.evValid then .refuse .eventDuringReset else .quiet s.powerOnReset := by
  rw [deliverTransaction, if_pos hrst]

/-- Settles O18, by what the ports deliver while `rst` is asserted. -/
theorem powerOnResetByPort : Obligations.PowerOnResetByPort := by
  intro s tr rest hl hin hrst
  rw [step, deliver_of_cons hl hin, deliverTransaction_of_rst _ hrst]
  refine ⟨fun hv => ?_, fun hv => ?_⟩
  · simp [hv, powerOnReset_eq]
  · simp [hv]

end Sys2Proof.Machine
